-- ==== Sys2Proof/Word.lean ====
section
/-! DEFINITION. The value types of the block: the Nibble, the Word16 of four Nibbles (00_scope.md R6),
the command word (30_encoding.md R35) and the conversions of R7. -/

namespace Sys2Proof

/-- R6: an unsigned integer in 0..15, the block's only native value width. -/
abbrev Nibble := BitVec 4

/-- R23: a cell address 0..15. -/
abbrev CellAddr := BitVec 4

/-- R35: one command, presented whole as 12 parallel bits. -/
abbrev CmdWord := BitVec 12

/-- R6: exactly four Nibbles, little-nibble-first; `d0` is digit 0, the least significant. -/
structure Word16 where
  d0 : Nibble
  d1 : Nibble
  d2 : Nibble
  d3 : Nibble
deriving DecidableEq, Repr

/-- R7: `w[0] + 16*w[1] + 256*w[2] + 4096*w[3]`, an integer in 0..65535. -/
def Word16.toInt (w : Word16) : Nat :=
  w.d0.toNat + 16 * w.d1.toNat + 256 * w.d2.toNat + 4096 * w.d3.toNat

/-- R7: digit `i` of `fromInt n` is `floor((n mod 65536) / 16^i) mod 16`, for every integer `n`. -/
def Word16.fromInt (n : Int) : Word16 :=
  let m := (n % 65536).toNat
  ⟨BitVec.ofNat 4 m, BitVec.ofNat 4 (m / 16), BitVec.ofNat 4 (m / 256), BitVec.ofNat 4 (m / 4096)⟩

/-- R61: the signed reading of a Word16, which no rule of the block uses. -/
def Word16.toSigned (w : Word16) : Int :=
  if 8 ≤ w.d3.toNat then (w.toInt : Int) - 65536 else w.toInt

/-- R57: `ONE` is `fromInt(1)`, the digits (1, 0, 0, 0). -/
def Word16.one : Word16 := ⟨1, 0, 0, 0⟩

end Sys2Proof
end

