-- ==== Sys2Proof/Config.lean ====
section
/-! DEFINITION. What an implementation fixes (00_scope.md R5) and the free values: constants with no
body, so that nothing can be proved of the value one of them has. -/

namespace Sys2Proof

/-- R5: the parameters of the block that 92_eei_decisions.md lists as configurable. -/
structure Params where
  /-- RESET_A: the start value of A. -/
  resetA   : Word16
  /-- RESET_B: the start value of B. -/
  resetB   : Word16
  /-- DEB_START: the start value of each debounce countdown. -/
  debStart : Nibble
deriving DecidableEq, Repr

/-- R5: SETTLE_LEN = DEB_START^3. -/
def Params.settleLen (P : Params) : Nat := P.debStart.toNat ^ 3

/-- R5: the build the model runs, every parameter at the default of R5's table.
DESIGN CHOICE, unsafe (entry 9): another build may be configured otherwise; the operations that read a
parameter take it as an argument. -/
def Config.params : Params :=
  { resetA := ⟨2, 0, 0, 0⟩, resetB := ⟨2, 0, 0, 0⟩, debStart := 15 }

/-- R5: NO_BUTTON, all four lines released. -/
def Config.noButton : Nibble := 15

/-- R63: the answer to raw read number `i` once the environment's script is used up. Free: any of the 16
values. DESIGN CHOICE, safe (entry 5). -/
opaque Config.rawSample : Nat → Nibble

/-- R21, U6: CF after RESET event number `i`: one free bit. DESIGN CHOICE, safe (entry 7). -/
opaque Config.resetCF : Nat → Bool

/-- R21, U7: DOUT after RESET event number `i`: one free Nibble. DESIGN CHOICE, safe (entry 7). -/
opaque Config.resetDOUT : Nat → Nibble

/-- R21, U8: BCAP after RESET event number `i`: one free Nibble. DESIGN CHOICE, safe (entry 7). -/
opaque Config.resetBCAP : Nat → Nibble

/-- R21, U8: K0 after RESET event number `i`: one free Nibble. DESIGN CHOICE, safe (entry 7). -/
opaque Config.resetK0 : Nat → Nibble

/-- R21, U8: K1 after RESET event number `i`: one free Nibble. DESIGN CHOICE, safe (entry 7). -/
opaque Config.resetK1 : Nat → Nibble

/-- R21, U8: K2 after RESET event number `i`: one free Nibble. DESIGN CHOICE, safe (entry 7). -/
opaque Config.resetK2 : Nat → Nibble

/-- R5, U17: the HOST's button identifiers, OPEN: arguments of whatever uses them (entry 16). -/
structure ButtonIds where
  up    : Nibble
  down  : Nibble
  left  : Nibble
  right : Nibble
deriving DecidableEq, Repr

end Sys2Proof
end

