-- ==== Sys2Proof/Syntax.lean ====
section
/-! DEFINITION. The commands of the block, one constructor per row of spec/opcode_table.json
(30_encoding.md R37), the three fields of a command word (R35), and the names of the implemented
operand cells (20_memory.md R24, 30_encoding.md R42). -/

namespace Sys2Proof

/-- R37: the seven commands. Operand fields are Nibbles taken exactly as they stand (R36). -/
inductive Instr where
  /-- `WRN c, n`: write the Nibble `n` to the cell at address `c` (R80). -/
  | wrn (c : CellAddr) (n : Nibble)
  /-- `RDN c`: read the cell at address `c` into DOUT (R81). -/
  | rdn (c : CellAddr)
  /-- `ADD16`: A <- A + B (R56). -/
  | add16
  /-- `SUB16`: A <- A - B (R59). -/
  | sub16
  /-- `STEPUP`: B[0] <- B[0] + 1 (R75). -/
  | stepup
  /-- `STEPDN`: B[0] <- B[0] - 1 (R76). -/
  | stepdn
  /-- `POLL`: sample the buttons, debounced (R64). -/
  | poll
deriving DecidableEq, Repr

/-- R35: the three Nibble fields of format N3. -/
structure Fields where
  op : Nibble
  c  : Nibble
  n  : Nibble
deriving DecidableEq, Repr

/-- R24: the eight implemented cells, by the names R42 gives them; `a0` is A[0], cell address 0. -/
inductive CellName where
  | a0 | a1 | a2 | a3 | b0 | b1 | b2 | b3
deriving DecidableEq, Repr

end Sys2Proof
end

