-- ==== Sys2Proof/WellFormed.lean ====
section
/-! DEFINITION. The checks: which field triples are the fields of a command (30_encoding.md R37, R38),
which parameters and button identifiers R5 admits, and well-formedness of a command. -/

namespace Sys2Proof

/-- R37, R38: the fields of a word are those of a command: a WRN with any `c` and `n`, an RDN with `n` zero,
or one of opcodes 3 to 7 with both fields zero. -/
def Fields.wf (f : Fields) : Bool :=
  match f.op.toNat with
  | 1 => true
  | 2 => f.n == 0
  | 3 | 4 | 5 | 6 | 7 => f.c == 0 && f.n == 0
  | _ => false

/-- R36: a command is well formed when each operand fits its 4-bit field, which the types of the operands
say already: a cell address 8 to 15 is a well-formed operand that faults when the command runs (R39). -/
def Instr.wf : Instr → Bool
  | .wrn _ _ => true
  | .rdn _ => true
  | .add16 => true
  | .sub16 => true
  | .stepup => true
  | .stepdn => true
  | .poll => true

/-- R69, 92_eei_decisions.md D13: a countdown starts at 1 or more. -/
def Params.wf (P : Params) : Bool := P.debStart != 0

/-- R5: four distinct masks, none equal to NO_BUTTON. -/
def ButtonIds.wf (ids : ButtonIds) : Bool :=
  ids.up != Config.noButton && ids.down != Config.noButton && ids.left != Config.noButton
    && ids.right != Config.noButton
    && ids.up != ids.down && ids.up != ids.left && ids.up != ids.right
    && ids.down != ids.left && ids.down != ids.right && ids.left != ids.right

end Sys2Proof
end

