-- ==== Sys2Proof/Decode.lean ====
section
/-! DEFINITION. Decoding a 12-bit command word (30_encoding.md R35 to R41) and encoding a command. -/

namespace Sys2Proof

/-- R39: why a word is Illegal. Both reasons raise the one fault IllegalCommand. -/
inductive IllegalWord where
  /-- The opcode is 0 or 8 to 15 (R37). -/
  | reservedOpcode
  /-- A must-be-zero field is not zero (R38). -/
  | nonzeroField
deriving DecidableEq, Repr

/-- R40: what a word decodes to. -/
inductive Decoded where
  | command (i : Instr)
  | illegal (why : IllegalWord)
deriving DecidableEq, Repr

/-- R36: `op = w[11:8]`, `c = w[7:4]`, `n = w[3:0]`. -/
def fields (w : CmdWord) : Fields :=
  { op := w.extractLsb' 8 4, c := w.extractLsb' 4 4, n := w.extractLsb' 0 4 }

/-- R38: a command with no operand: both fields must be zero. -/
def decodePlain (f : Fields) (i : Instr) : Decoded :=
  if f.c = 0 ∧ f.n = 0 then .command i else .illegal .nonzeroField

/-- R40: the decoder, total on 12-bit words. The cell address of WRN and RDN is not looked at (R39). -/
def decode (w : CmdWord) : Decoded :=
  let f := fields w
  match f.op.toNat with
  | 1 => .command (.wrn f.c f.n)
  | 2 => if f.n = 0 then .command (.rdn f.c) else .illegal .nonzeroField
  | 3 => decodePlain f .add16
  | 4 => decodePlain f .sub16
  | 5 => decodePlain f .stepup
  | 6 => decodePlain f .stepdn
  | 7 => decodePlain f .poll
  | _ => .illegal .reservedOpcode

/-- R35: the word `{op, c, n}`. -/
def Fields.word (f : Fields) : CmdWord := f.op ++ f.c ++ f.n

/-- R37: the fields of a command. -/
def Instr.fields : Instr → Fields
  | .wrn c n => ⟨1, c, n⟩
  | .rdn c   => ⟨2, c, 0⟩
  | .add16   => ⟨3, 0, 0⟩
  | .sub16   => ⟨4, 0, 0⟩
  | .stepup  => ⟨5, 0, 0⟩
  | .stepdn  => ⟨6, 0, 0⟩
  | .poll    => ⟨7, 0, 0⟩

/-- R40: `encode`, the one word of a command. -/
def encode (i : Instr) : CmdWord := i.fields.word

/-- The lines of the command port that a number of `nbits` bits drives: its low 12 bits, numbered as
spec/opcode_table.json numbers them. DESIGN CHOICE, safe (entry 3): bits above 11 pad the word to whole bytes. -/
def portWord (nbits w : Nat) : CmdWord := BitVec.ofNat 12 (w % 2 ^ nbits)

/-- The instruction the decoder reads from an instruction whose bits are `w`. -/
def decodeTableWord (nbits w : Nat) : Option Instr :=
  match decode (portWord nbits w) with
  | .command i => some i
  | .illegal _ => none

end Sys2Proof
end

