-- ==== Sys2Proof/Machine/State.lean ====
section
/-! DEFINITION. The state: the block's ten elements (10_state.md R10), beside them what the HOST and the BUTTONS
environment will do, and the model's bookkeeping; the faults and refusals; the state after reset (R21). -/

namespace Sys2Proof.Machine

/-- R15: the block's control state. -/
inductive Mode where
  /-- The block accepts a command. -/
  | ready
  /-- A POLL has seen a press and the settle loop is running. -/
  | settling
  /-- A fault has been taken; only RESET leaves this mode. -/
  | halted
deriving DecidableEq, Repr

/-- R82: the two faults of the block, each with the word the model records. Taking one is a NEXT state with
MODE = HALTED (R83) that notes it in `Record.fault`; no step answers `Outcome.fault` (entry 10). -/
inductive Fault where
  /-- Raised by any accepted word that decodes to Illegal; code 1. Safe: a halted run is never a normal end. -/
  | illegalCommand (w : CmdWord)
  /-- Raised by WRN and RDN when the cell address is 8 to 15; code 2. Safe: a halted run is never a normal end. -/
  | illegalCell (w : CmdWord)
deriving DecidableEq, Repr

/-- Why the model gives an instruction no meaning. -/
inductive Refusal where
  /-- Raised by `exec` for an instruction whose meaning is not written yet. No arm raises it. Safe: nothing can
  be proved of a step that is refused. -/
  | notModelled (mnemonic : String)
deriving DecidableEq, Repr

/-- R47, R49: what the micro-step ADD0 or ADD_i computes: the digit, its carry, and CF after it. -/
structure AddTrace where
  r  : Nibble
  c2 : Bool
  cf : Bool
deriving DecidableEq, Repr

/-- R48: what the micro-step FIX_i computes: the carry found, the adjusted digit, the carry of the
increment, and CF after it. -/
structure FixTrace where
  cin : Bool
  x   : Nibble
  c1  : Bool
  cf  : Bool
deriving DecidableEq, Repr

/-- R51: the trace of a pass, micro-step by micro-step: CLR, ADD0, FIX1, ADD1, FIX2, ADD2, FIX3, ADD3. -/
structure PassTrace where
  /-- CF after CLR, `cf[0]`. -/
  clr  : Bool
  add0 : AddTrace
  fix1 : FixTrace
  add1 : AddTrace
  fix2 : FixTrace
  add2 : AddTrace
  fix3 : FixTrace
  add3 : AddTrace
deriving DecidableEq, Repr

/-- R10: the whole state of the block. -/
structure Block where
  /-- R11: the running counter, first operand and destination of ADD16 and SUB16; cells 0 to 3. -/
  a    : Word16
  /-- R12: the step, second operand; cells 4 to 7. -/
  b    : Word16
  /-- R13: the scratch carry flag. -/
  cf   : Bool
  /-- R14: the output latch. -/
  dout : Nibble
  /-- R15. -/
  mode : Mode
  /-- R16: the captured press. -/
  bcap : Nibble
  /-- R17: the innermost countdown. -/
  k0   : Nibble
  /-- R17: the middle countdown. -/
  k1   : Nibble
  /-- R17: the outermost countdown. -/
  k2   : Nibble
deriving DecidableEq, Repr

/-- R63: the BUTTONS environment, not the block's state (R20): the answers it will give to the next raw
reads, and how many reads have been made. After the script a read is free (entry 5). -/
structure RawPort where
  script : List Nibble
  reads  : Nat
deriving DecidableEq, Repr

/-- R10: the model's bookkeeping, which no meaning reads. -/
structure Record where
  /-- R51, R58: the traces of the passes of the last ADD16 or SUB16, first pass first (entry 15). -/
  trace : List PassTrace
  /-- R82: the fault taken, if any (entry 10). -/
  fault : Option Fault
deriving DecidableEq, Repr

/-- The block, and beside it the environment that a step answers to (entry 1). -/
structure State where
  block   : Block
  /-- HOST: the words it will present, in order (R101); the first is the one presented now. -/
  program : List CmdWord
  /-- HOST: when it asserts RESET (R93): each number is how many steps pass before that RESET (entry 4). -/
  resets  : List Nat
  raw     : RawPort
  /-- The MODEL's own: how many RESET events there have been; the index of their free values (entry 7). -/
  nresets : Nat
  record  : Record
deriving DecidableEq, Repr

/-- R21: the block after reset: A, B and MODE as the rule says. CF, DOUT, BCAP and K0 to K2, for which the
spec gives no value, are zero: DESIGN CHOICE, unsafe (entry 6). -/
def Block.reset (P : Params) : Block :=
  { a := P.resetA, b := P.resetB, cf := false, dout := 0, mode := .ready, bcap := 0, k0 := 0, k1 := 0, k2 := 0 }

/-- R21: the machine right after reset, with no word presented, no RESET to come, no sample scripted and
nothing recorded: DESIGN CHOICE (entry 8). -/
def State.reset : State :=
  { block := Block.reset Config.params, program := [], resets := [], raw := { script := [], reads := 0 },
    nresets := 0, record := { trace := [], fault := none } }

end Sys2Proof.Machine
end

