-- ==== Sys2Proof/Machine/Flags.lean ====
section
/-! DEFINITION. The one flag, CF (10_state.md R13): the ways a micro-step writes it. -/

namespace Sys2Proof.Machine

/-- R46, and the consuming clear of R48: `CF <- 0`, whatever CF held. -/
def cfClear (_cf : Bool) : Bool := false

/-- R47 to R49: `if carry = 1: CF <- 1`. The set is conditional: without a carry CF keeps its value
(90_conflicts.md C1). -/
def cfSetIf (cf carry : Bool) : Bool := if carry then true else cf

end Sys2Proof.Machine
end

