-- ==== Sys2Proof/Machine/Operands.lean ====
section
/-! DEFINITION. The operand forms (30_encoding.md R36): a cell address (20_memory.md R24) and an immediate Nibble;
the operand registers fixed by the opcode are the fields A and B themselves. -/

namespace Sys2Proof.Machine

/-- R24: the cell a cell address names; none for the unimplemented addresses 8 to 15. -/
def cellAt (c : CellAddr) : Option CellName :=
  match c.toNat with
  | 0 => some .a0
  | 1 => some .a1
  | 2 => some .a2
  | 3 => some .a3
  | 4 => some .b0
  | 5 => some .b1
  | 6 => some .b2
  | 7 => some .b3
  | _ => none

/-- R24: the address of an implemented cell. -/
def addrOf : CellName → CellAddr
  | .a0 => 0
  | .a1 => 1
  | .a2 => 2
  | .a3 => 3
  | .b0 => 4
  | .b1 => 5
  | .b2 => 6
  | .b3 => 7

/-- R24, R25: the register digit a cell is. -/
def Block.readDigit (b : Block) : CellName → Nibble
  | .a0 => b.a.d0
  | .a1 => b.a.d1
  | .a2 => b.a.d2
  | .a3 => b.a.d3
  | .b0 => b.b.d0
  | .b1 => b.b.d1
  | .b2 => b.b.d2
  | .b3 => b.b.d3

/-- R24, R25: a write to a cell is a write to its register digit; the other seven digits stay. -/
def Block.writeDigit (b : Block) (cell : CellName) (v : Nibble) : Block :=
  match cell with
  | .a0 => { b with a := { b.a with d0 := v } }
  | .a1 => { b with a := { b.a with d1 := v } }
  | .a2 => { b with a := { b.a with d2 := v } }
  | .a3 => { b with a := { b.a with d3 := v } }
  | .b0 => { b with b := { b.b with d0 := v } }
  | .b1 => { b with b := { b.b with d1 := v } }
  | .b2 => { b with b := { b.b with d2 := v } }
  | .b3 => { b with b := { b.b with d3 := v } }

/-- R8: `MemRead(c, 1)`, the content of a cell address; none where no cell is implemented. -/
def Block.cell (b : Block) (c : CellAddr) : Option Nibble := (cellAt c).map b.readDigit

/-- R6: bits `4*i+3 : 4*i` of a 16-bit value, the immediate digit `i` of R43's expansions. -/
def digitOf (v : BitVec 16) (i : Nat) : Nibble := v.extractLsb' (4 * i) 4

end Sys2Proof.Machine
end

