-- ==== Sys2Proof/Machine/Ops.lean ====
section
/-! DEFINITION. The named operations over the state: the updates of its fields, one raw read (41_debounce.md R63),
taking a fault (60_exceptions.md R83), the RESET event (70_reset_and_hazards.md R93), the outputs (10_state.md R19). -/

namespace Sys2Proof.Machine

/-- `A <- w`. -/
def Block.setA (b : Block) (w : Word16) : Block := { b with a := w }

/-- `B <- w`. -/
def Block.setB (b : Block) (w : Word16) : Block := { b with b := w }

/-- `CF <- v`. -/
def Block.setCF (b : Block) (v : Bool) : Block := { b with cf := v }

/-- `DOUT <- v`. -/
def Block.setDOUT (b : Block) (v : Nibble) : Block := { b with dout := v }

/-- `MODE <- m`. -/
def Block.setMode (b : Block) (m : Mode) : Block := { b with mode := m }

/-- `BCAP <- v`. -/
def Block.setBCAP (b : Block) (v : Nibble) : Block := { b with bcap := v }

/-- `K0 <- k0; K1 <- k1; K2 <- k2`. -/
def Block.setK (b : Block) (k0 k1 k2 : Nibble) : Block := { b with k0 := k0, k1 := k1, k2 := k2 }

/-- The state with another block. -/
def State.setBlock (s : State) (b : Block) : State := { s with block := b }

/-- The state with other words to come from the HOST. -/
def State.setProgram (s : State) (p : List CmdWord) : State := { s with program := p }

/-- The state with another RESET schedule. -/
def State.setResets (s : State) (r : List Nat) : State := { s with resets := r }

/-- The state with another raw port. -/
def State.setRaw (s : State) (r : RawPort) : State := { s with raw := r }

/-- The state with the traces of an arithmetic command recorded (R51, R58). -/
def State.setTrace (s : State) (t : List PassTrace) : State := { s with record := { s.record with trace := t } }

/-- The state with a fault recorded (R82). -/
def State.setFault (s : State) (f : Option Fault) : State := { s with record := { s.record with fault := f } }

/-- R63: the value of one `ReadRaw()`: the next of the environment's script, or a free Nibble (entry 5). -/
def RawPort.sample (r : RawPort) : Nibble :=
  match r.script with
  | v :: _ => v
  | [] => Config.rawSample r.reads

/-- R63: the port after that read: the answer is used up, and nothing else is affected. -/
def RawPort.advance (r : RawPort) : RawPort := { script := r.script.tail, reads := r.reads + 1 }

/-- R63: the state after one `ReadRaw()`. -/
def State.afterRead (s : State) : State := s.setRaw s.raw.advance

/-- R83: taking a fault: `MODE <- HALTED` and nothing else; the fault goes into the model's record (R82). -/
def raiseFault (f : Fault) (s : State) : State := (s.setBlock (s.block.setMode .halted)).setFault (some f)

/-- R82: the cause code, a label of the record only. -/
def Fault.code : Fault → Nat
  | .illegalCommand _ => 1
  | .illegalCell _ => 2

/-- R82: the recorded word. -/
def Fault.word : Fault → CmdWord
  | .illegalCommand w => w
  | .illegalCell w => w

/-- R93, R21: the block after RESET event number `i`: A, B and MODE as the rule says; the unspecified elements
are free (93_implementation_defined.md U6 to U8; entry 7). -/
def Block.afterReset (P : Params) (i : Nat) : Block :=
  { a := P.resetA, b := P.resetB, cf := Config.resetCF i, dout := Config.resetDOUT i, mode := .ready,
    bcap := Config.resetBCAP i, k0 := Config.resetK0 i, k1 := Config.resetK1 i, k2 := Config.resetK2 i }

/-- R93: the RESET event, the same in every mode; it is the only way out of HALTED (R84, R87), so it stands
where a return from an exception would. "Nothing survives": the record is emptied too. The environment stays. -/
def takeReset (s : State) : State :=
  { s with block := Block.afterReset Config.params s.nresets, nresets := s.nresets + 1,
           record := { trace := [], fault := none } }

/-- R19: BUSY, 1 exactly when MODE = SETTLING. -/
def State.busy (s : State) : Bool := decide (s.block.mode = .settling)

/-- R19: HALT, 1 exactly when MODE = HALTED. -/
def State.halt (s : State) : Bool := decide (s.block.mode = .halted)

/-- R14: what the HOST can read of DOUT: its value whenever MODE = READY. -/
def State.hostDout (s : State) : Option Nibble := if s.block.mode = .ready then some s.block.dout else none

end Sys2Proof.Machine
end

