-- ==== Sys2Proof/Machine/Access.lean ====
section
/-! DEFINITION. The operand access commands WRN (43_operand_access.md R80) and RDN (R81). -/

namespace Sys2Proof.Machine

/-- R80: `WRN c, n`: IllegalCell for `c >= 8`, with the command's own word recorded (R82); else `cell[c] <- n`. -/
def execWrn (c : CellAddr) (n : Nibble) (s : State) : Host.Outcome State Fault Refusal :=
  match cellAt c with
  | none => .next (raiseFault (.illegalCell (encode (.wrn c n))) s)
  | some cell => .next (s.setBlock (s.block.writeDigit cell n))

/-- R81: `RDN c`: IllegalCell for `c >= 8`; else `DOUT <- cell[c]`. -/
def execRdn (c : CellAddr) (s : State) : Host.Outcome State Fault Refusal :=
  match cellAt c with
  | none => .next (raiseFault (.illegalCell (encode (.rdn c))) s)
  | some cell => .next (s.setBlock (s.block.setDOUT (s.block.readDigit cell)))

end Sys2Proof.Machine
end

