-- ==== Sys2Proof/Machine/Slice.lean ====
section
/-! DEFINITION. The chained 4-bit slices: add4 (40_arith.md R45), the eight micro-steps of a pass (R46 to R50), the
pass with its trace (R51), and the negation SUB16 is built from (R57, R58). The two stages of a slice are the
definition, not a 16-bit sum (R55). -/

namespace Sys2Proof.Machine

/-- R45: `(s, c)` with `s = (x + y) mod 16` and `c` true exactly when `x + y >= 16`. There is no carry-in. -/
def add4 (x y : Nibble) : Nibble × Bool := (x + y, decide (16 ≤ x.toNat + y.toNat))

/-- R47, R49: an add stage on the digits `x` and `q`, CF being `cf` before it: CF is set on a carry and
otherwise keeps its value. -/
def addStage (cf : Bool) (x q : Nibble) : AddTrace :=
  let sc := add4 x q
  { r := sc.1, c2 := sc.2, cf := cfSetIf cf sc.2 }

/-- R48: a fix stage: a set CF is consumed and added as 1 into the first operand's digit `p`; that
increment can overflow and set CF again. -/
def fixStage (cf : Bool) (p : Nibble) : FixTrace :=
  if cf then
    let xc := add4 p 1
    { cin := cf, x := xc.1, c1 := xc.2, cf := cfSetIf (cfClear cf) xc.2 }
  else
    { cin := cf, x := p, c1 := false, cf := cf }

/-- R51: `pass(p, q)`, the eight micro-steps in order, CF being `cf` before the pass. -/
def runPass (cf : Bool) (p q : Word16) : PassTrace :=
  let clr := cfClear cf
  let add0 := addStage clr p.d0 q.d0
  let fix1 := fixStage add0.cf p.d1
  let add1 := addStage fix1.cf fix1.x q.d1
  let fix2 := fixStage add1.cf p.d2
  let add2 := addStage fix2.cf fix2.x q.d2
  let fix3 := fixStage add2.cf p.d3
  let add3 := addStage fix3.cf fix3.x q.d3
  { clr, add0, fix1, add1, fix2, add2, fix3, add3 }

/-- R50: the result of a pass, the four digits computed, `r[0]` least significant. -/
def PassTrace.result (t : PassTrace) : Word16 := ⟨t.add0.r, t.add1.r, t.add2.r, t.add3.r⟩

/-- R50: the CF a pass leaves. -/
def PassTrace.cfOut (t : PassTrace) : Bool := t.add3.cf

/-- R51: `cf[0..7]`, CF after each micro-step. -/
def PassTrace.cfs (t : PassTrace) : List Bool :=
  [t.clr, t.add0.cf, t.fix1.cf, t.add1.cf, t.fix2.cf, t.add2.cf, t.fix3.cf, t.add3.cf]

/-- R51: `add16(a, b)`, the result of `pass(a, b)`. -/
def add16 (a b : Word16) : Word16 := (runPass false a b).result

/-- R98: a pass over the register A that writes each `r[i]` over `A[i]` as soon as ADD_i has produced it;
the register after it, and the trace. -/
def passInPlace (cf : Bool) (a q : Word16) : Word16 × PassTrace :=
  let clr := cfClear cf
  let add0 := addStage clr a.d0 q.d0
  let a := { a with d0 := add0.r }
  let fix1 := fixStage add0.cf a.d1
  let add1 := addStage fix1.cf fix1.x q.d1
  let a := { a with d1 := add1.r }
  let fix2 := fixStage add1.cf a.d2
  let add2 := addStage fix2.cf fix2.x q.d2
  let a := { a with d2 := add2.r }
  let fix3 := fixStage add2.cf a.d3
  let add3 := addStage fix3.cf fix3.x q.d3
  ({ a with d3 := add3.r }, { clr, add0, fix1, add1, fix2, add2, fix3, add3 })

/-- R57: the digit `15 - d`. -/
def invDigit (d : Nibble) : Nibble := 15 - d

/-- R57: each digit inverted. -/
def inv16 (w : Word16) : Word16 := ⟨invDigit w.d0, invDigit w.d1, invDigit w.d2, invDigit w.d3⟩

/-- R57: the pass that negates: `pass(inv16(w), ONE)`. -/
def negPass (cf : Bool) (w : Word16) : PassTrace := runPass cf (inv16 w) Word16.one

/-- R57: `neg16(w) = add16(inv16(w), ONE)`. -/
def neg16 (w : Word16) : Word16 := add16 (inv16 w) Word16.one

/-- R58: `sub16(a, b) = add16(a, neg16(b))`. -/
def sub16 (a b : Word16) : Word16 := add16 a (neg16 b)

end Sys2Proof.Machine
end

