-- ==== Sys2Proof/Machine/Arith.lean ====
section
/-! DEFINITION. The arithmetic commands ADD16 (40_arith.md R56) and SUB16 (R59). -/

namespace Sys2Proof.Machine

/-- R56: `A <- add16(A, B)`; CF is left as the carry out of digit 3; the trace is recorded. -/
def execAdd16 (s : State) : Host.Outcome State Fault Refusal :=
  let t := runPass s.block.cf s.block.a s.block.b
  .next ((s.setBlock ((s.block.setA t.result).setCF t.cfOut)).setTrace [t])

/-- R59: `NB <- neg16(B)` in a first pass, `A <- add16(A, NB)` in a second, each with its own CLR (R58);
`NB` is transient and B is unchanged. -/
def execSub16 (s : State) : Host.Outcome State Fault Refusal :=
  let t1 := negPass s.block.cf s.block.b
  let t2 := runPass t1.cfOut s.block.a t1.result
  .next ((s.setBlock ((s.block.setA t2.result).setCF t2.cfOut)).setTrace [t1, t2])

end Sys2Proof.Machine
end

