-- ==== Sys2Proof/Machine/Debounce.lean ====
section
/-! DEFINITION. The input debouncer: POLL (41_debounce.md R64, R65) and the settle step (R66 to R68), for any
parameters of the block. -/

namespace Sys2Proof.Machine

/-- R65, R66: all three countdowns are loaded with DEB_START. -/
def Block.loadCountdowns (P : Params) (b : Block) : Block := b.setK P.debStart P.debStart P.debStart

/-- R64, R65: the command step of POLL on the sample `v`: NO_BUTTON is returned at once; any other value is
captured, the countdowns are loaded and the settle loop is entered. -/
def Block.poll (P : Params) (v : Nibble) (b : Block) : Block :=
  if v = Config.noButton then b.setDOUT Config.noButton
  else ((b.setBCAP v).loadCountdowns P).setMode .settling

/-- R68: completion: the captured mask is returned and the block is ready again. -/
def Block.complete (b : Block) : Block := (b.setDOUT b.bcap).setMode .ready

/-- R67: a released sample: decrement, then test, the innermost countdown first; an exhausted inner countdown
is reloaded. Outside R69's invariant a countdown at 0 wraps to 15 (DESIGN CHOICE, safe, entry 13). -/
def Block.countDown (P : Params) (b : Block) : Block :=
  if b.k0 - 1 ≠ 0 then b.setK (b.k0 - 1) b.k1 b.k2
  else if b.k1 - 1 ≠ 0 then b.setK P.debStart (b.k1 - 1) b.k2
  else if b.k2 - 1 ≠ 0 then b.setK P.debStart P.debStart (b.k2 - 1)
  else (b.setK P.debStart P.debStart 0).complete

/-- R66, R67: one settle step on the sample `v`. -/
def Block.settle (P : Params) (v : Nibble) (b : Block) : Block :=
  if v = Config.noButton then b.countDown P else b.loadCountdowns P

/-- R69: the number of further consecutive released samples needed. -/
def Block.rem (P : Params) (b : Block) : Nat :=
  (b.k2.toNat - 1) * P.debStart.toNat ^ 2 + (b.k1.toNat - 1) * P.debStart.toNat + b.k0.toNat

/-- R66 to R68: one step of the SETTLE agent: one raw read, then the countdown. -/
def settleStep (s : State) : State := s.afterRead.setBlock (s.block.settle Config.params s.raw.sample)

/-- R64: `POLL`: one raw read, then the command step. -/
def execPoll (s : State) : Host.Outcome State Fault Refusal :=
  .next (s.afterRead.setBlock (s.block.poll Config.params s.raw.sample))

end Sys2Proof.Machine
end

