-- ==== Sys2Proof/Machine/StepAdjust.lean ====
section
/-! DEFINITION. The step adjustments STEPUP (42_step_adjust.md R75) and STEPDN (R76): one add4 on B[0], its carry dropped,
with no propagation into the higher digits. -/

namespace Sys2Proof.Machine

/-- R75, R76: `B[0] <- add4(B[0], d)`, the carry dropped and CF untouched. -/
def Block.adjustStep (b : Block) (d : Nibble) : Block := b.setB { b.b with d0 := (add4 b.b.d0 d).1 }

/-- R75: `STEPUP`. -/
def execStepup (s : State) : Host.Outcome State Fault Refusal := .next (s.setBlock (s.block.adjustStep 1))

/-- R76: `STEPDN`: adding 15 is subtracting 1 modulo 16. -/
def execStepdn (s : State) : Host.Outcome State Fault Refusal := .next (s.setBlock (s.block.adjustStep 15))

end Sys2Proof.Machine
end

