-- ==== Sys2Proof/Machine/Dispatch.lean ====
section
/-! DEFINITION. The meaning of each command, one arm per constructor (30_encoding.md R37). -/

namespace Sys2Proof.Machine

def exec (i : Instr) (s : State) : Host.Outcome State Fault Refusal :=
  match i with
  | .wrn c n => Sys2Proof.Machine.execWrn c n s
  | .rdn c => Sys2Proof.Machine.execRdn c s
  | .add16 => Sys2Proof.Machine.execAdd16 s
  | .sub16 => Sys2Proof.Machine.execSub16 s
  | .stepup => Sys2Proof.Machine.execStepup s
  | .stepdn => Sys2Proof.Machine.execStepdn s
  | .poll => Sys2Proof.Machine.execPoll s

end Sys2Proof.Machine
end

