-- ==== Sys2Proof/Machine/Accept.lean ====
section
/-! DEFINITION. When a command is accepted (30_encoding.md R44), and one step of the machine: RESET first (60_exceptions.md
R86), then what MODE allows. -/

namespace Sys2Proof.Machine

/-- R44: accepting a word: decode it and perform its command, or raise IllegalCommand. -/
def accept (w : CmdWord) (s : State) : Host.Outcome State Fault Refusal :=
  match decode w with
  | .command i => exec i s
  | .illegal _ => .next (raiseFault (.illegalCommand w) s)

/-- R44, R101: a step in READY: the HOST's next word is accepted; a HOST that presents none leaves the state as it is
(R92; entry 11). -/
def readyStep (s : State) : Host.Outcome State Fault Refusal :=
  match s.program with
  | [] => .next s
  | w :: rest => accept w (s.setProgram rest)

/-- R15, R44, R84: a step with no RESET: a settle step in SETTLING, nothing in HALTED, and in both the HOST's word
waits (entry 12). -/
def modeStep (s : State) : Host.Outcome State Fault Refusal :=
  match s.block.mode with
  | .ready => readyStep s
  | .settling => .next (settleStep s)
  | .halted => .next s

/-- R93: RESET is asserted in this step (entry 4). -/
def resetNow (resets : List Nat) : Bool := resets.head? == some 0

/-- The RESET schedule one step later, where no RESET was asserted (entry 4). -/
def tickResets : List Nat → List Nat
  | [] => []
  | k :: later => (k - 1) :: later

/-- R93, R86: a step: a RESET asserted now wins over everything; otherwise the schedule comes one step nearer and MODE
decides. -/
def machineStep (s : State) : Host.Outcome State Fault Refusal :=
  if resetNow s.resets then .next (takeReset (s.setResets s.resets.tail))
  else modeStep (s.setResets (tickResets s.resets))

/-- The HOST presents `w` to a block that is ready for it: `w` takes the place of the word presented now, MODE is READY
and no RESET is asserted in this step (entry 3). -/
def presentWord (w : CmdWord) (s : State) : State :=
  { s with program := w :: s.program.tail, block := s.block.setMode .ready,
           resets := s.resets.dropWhile fun k => k == 0 }

end Sys2Proof.Machine
end

