-- ==== Sys2Proof/Machine/Step.lean ====
section
/-! DEFINITION. One step of the machine, and where a test puts the instruction the next step runs. -/

namespace Sys2Proof.Machine

/-- One step of whichever agent the state says is next (00_scope.md R2, R9). -/
def step (s : State) : Host.Outcome State Fault Refusal := machineStep s

/-- `s` with the instruction whose bits are `w` presented so that the next step accepts it (entries 2 and 3). -/
def State.withFetchWord (s : State) (nbits w : Nat) : State := presentWord (portWord nbits w) s

end Sys2Proof.Machine
end

