-- ==== Sys2Proof/Machine/HostProtocol.lean ====
section
/-! DEFINITION. What the spec says of the HOST over the commands of the block: HANDLE_BUTTON (42_step_adjust.md R78),
commands in order (20_memory.md R30), and the pseudo-instructions LDA16 and LDB16 (30_encoding.md R43). The block performs none of it. -/

namespace Sys2Proof.Machine

/-- R78: the command the HOST presents for the DOUT of a completed POLL, if any. The test is equality of the whole mask;
LEFT and RIGHT adjust nothing (R79). The identifiers are the HOST's, OPEN (entry 16). -/
def handleButton (ids : ButtonIds) (btn : Nibble) : Option Instr :=
  if btn = ids.up then some .stepup
  else if btn = ids.down then some .stepdn
  else none

/-- R30: commands performed one after another, each on the state its predecessor left. -/
def execList : List Instr → State → Host.Outcome State Fault Refusal
  | [], s => .next s
  | i :: is, s =>
    match exec i s with
    | .next t => execList is t
    | .fault f => .fault f
    | .refused r => .refused r

/-- R43: `LDA16 v`: four WRN, digit 0 first. -/
def lda16 (v : BitVec 16) : List Instr :=
  [.wrn 0 (digitOf v 0), .wrn 1 (digitOf v 1), .wrn 2 (digitOf v 2), .wrn 3 (digitOf v 3)]

/-- R43: `LDB16 v`: four WRN, digit 0 first. -/
def ldb16 (v : BitVec 16) : List Instr :=
  [.wrn 4 (digitOf v 0), .wrn 5 (digitOf v 1), .wrn 6 (digitOf v 2), .wrn 7 (digitOf v 3)]

end Sys2Proof.Machine
end

