-- ==== Sys2Proof/Machine/Asm.lean ====
section
/-! DEFINITION. The textual form of a command (30_encoding.md R42) with the pseudo-instructions of R43: one line of source to
the commands it stands for, none where it is no line of the language. Layout: entry 17. -/

namespace Sys2Proof.Machine

/-- R42: a token of a line: a word (mnemonic, number or cell name) or the comma between operands. -/
inductive Token where
  | word (cs : List Char)
  | comma
deriving DecidableEq, Repr

/-- The word collected so far, if any, as a token before `rest`. The word is collected backwards. -/
def flushWord (acc : List Char) (rest : List Token) : List Token :=
  if acc.isEmpty then rest else .word acc.reverse :: rest

/-- R42: the tokens of a line; a semicolon starts a comment that runs to the end of the line. -/
def tokenize : List Char → List Char → List Token
  | acc, [] => flushWord acc []
  | acc, ';' :: _ => flushWord acc []
  | acc, ',' :: cs => flushWord acc (.comma :: tokenize [] cs)
  | acc, ' ' :: cs => flushWord acc (tokenize [] cs)
  | acc, '\t' :: cs => flushWord acc (tokenize [] cs)
  | acc, c :: cs => tokenize (c :: acc) cs

/-- The value of a digit character below 16; letters of either case (entry 17). -/
def digitValue (c : Char) : Option Nat :=
  let k := c.toNat
  if 48 ≤ k ∧ k ≤ 57 then some (k - 48)
  else if 65 ≤ k ∧ k ≤ 70 then some (k - 55)
  else if 97 ≤ k ∧ k ≤ 102 then some (k - 87)
  else none

/-- The digits of a number in base `base`, most significant first, after the value `v`. -/
def digitsValue (base : Nat) : Nat → List Char → Option Nat
  | v, [] => some v
  | v, c :: cs =>
    match digitValue c with
    | some d => if d < base then digitsValue base (base * v + d) cs else none
    | none => none

/-- R42: numbers are decimal or `0x` hexadecimal. -/
def number : List Char → Option Nat
  | [] => none
  | ['0', 'x'] => none
  | '0' :: 'x' :: cs => digitsValue 16 0 cs
  | cs => digitsValue 10 0 cs

/-- R42: a Nibble operand, 0 to 15. -/
def nibbleOperand (cs : List Char) : Option Nibble :=
  match number cs with
  | some v => if v < 16 then some (BitVec.ofNat 4 v) else none
  | none => none

/-- R43: a 16-bit operand, 0 to 65535. -/
def wordOperand (cs : List Char) : Option (BitVec 16) :=
  match number cs with
  | some v => if v < 65536 then some (BitVec.ofNat 16 v) else none
  | none => none

/-- R42: a cell address, by name or by number; 8 to 15 assemble and fault when run. -/
def cellOperand (cs : List Char) : Option CellAddr :=
  match cs with
  | ['A', '0'] => some (addrOf .a0)
  | ['A', '1'] => some (addrOf .a1)
  | ['A', '2'] => some (addrOf .a2)
  | ['A', '3'] => some (addrOf .a3)
  | ['B', '0'] => some (addrOf .b0)
  | ['B', '1'] => some (addrOf .b1)
  | ['B', '2'] => some (addrOf .b2)
  | ['B', '3'] => some (addrOf .b3)
  | cs => nibbleOperand cs

/-- R42: a line of one word, a command with no operand. -/
def assemblePlain (m : List Char) : Option (List Instr) :=
  if m = ['A', 'D', 'D', '1', '6'] then some [.add16]
  else if m = ['S', 'U', 'B', '1', '6'] then some [.sub16]
  else if m = ['S', 'T', 'E', 'P', 'U', 'P'] then some [.stepup]
  else if m = ['S', 'T', 'E', 'P', 'D', 'N'] then some [.stepdn]
  else if m = ['P', 'O', 'L', 'L'] then some [.poll]
  else none

/-- R42, R43: a line of one word and one operand: RDN, or one of the pseudo-instructions. -/
def assembleUnary (m x : List Char) : Option (List Instr) :=
  if m = ['R', 'D', 'N'] then (cellOperand x).map fun c => [.rdn c]
  else if m = ['L', 'D', 'A', '1', '6'] then (wordOperand x).map lda16
  else if m = ['L', 'D', 'B', '1', '6'] then (wordOperand x).map ldb16
  else none

/-- R42: a line of one word and two operands: WRN. -/
def assembleBinary (m x y : List Char) : Option (List Instr) :=
  if m = ['W', 'R', 'N'] then
    match cellOperand x, nibbleOperand y with
    | some c, some n => some [.wrn c n]
    | _, _ => none
  else none

/-- R42: the commands of one line of tokens; an empty line has none. -/
def assembleTokens : List Token → Option (List Instr)
  | [] => some []
  | [.word m] => assemblePlain m
  | [.word m, .word x] => assembleUnary m x
  | [.word m, .word x, .comma, .word y] => assembleBinary m x y
  | _ => none

/-- R42, R43: the commands of one line of source. -/
def assembleLine (line : List Char) : Option (List Instr) := assembleTokens (tokenize [] line)

/-- R42: the commands of a program, one line after another. -/
def assemble : List (List Char) → Option (List Instr)
  | [] => some []
  | line :: lines =>
    match assembleLine line, assemble lines with
    | some is, some rest => some (is ++ rest)
    | _, _ => none

/-- R42: the text of a cell address or a Nibble, a decimal number. -/
def numeral (v : Nibble) : List Char := Nat.toDigits 10 v.toNat

/-- R42: the textual form of a command. -/
def textOf : Instr → List Char
  | .wrn c n => ['W', 'R', 'N', ' '] ++ numeral c ++ [',', ' '] ++ numeral n
  | .rdn c => ['R', 'D', 'N', ' '] ++ numeral c
  | .add16 => ['A', 'D', 'D', '1', '6']
  | .sub16 => ['S', 'U', 'B', '1', '6']
  | .stepup => ['S', 'T', 'E', 'P', 'U', 'P']
  | .stepdn => ['S', 'T', 'E', 'P', 'D', 'N']
  | .poll => ['P', 'O', 'L', 'L']

end Sys2Proof.Machine
end

