-- ==== Sys2Proof/Safety.lean ====
section
/-! DEFINITION. How a run ends (70_reset_and_hazards.md R101), the settled sample sequence (41_debounce.md R70), and the
invariant every step keeps (R69). -/

namespace Sys2Proof.Machine

/-- R101: a run has ended normally when every word has been accepted and completed and MODE = READY. DESIGN CHOICE, unsafe
(entry 20): R101's run has no RESET after its first, and this looks at the state reached only. After a later RESET it counts a
run as ended normally whose POLL that RESET abandoned, or which had HALTED before it. For a run from a state with
`resets = []` it is R101's. -/
abbrev State.EndedNormally (s : State) : Prop := s.program = [] ∧ s.block.mode = .ready

/-- R101: the result of a run that has ended normally: the final A, B and DOUT. After a RESET during the run
this is the model's choice, as `EndedNormally` is (entry 20). -/
def State.result (s : State) : Option (Word16 × Word16 × Nibble) :=
  if s.EndedNormally then some (s.block.a, s.block.b, s.block.dout) else none

/-- R101, R84: a run has faulted when MODE = HALTED; a HALTED state is never a normal end. Of the state reached only: after
a later RESET it no longer holds (DESIGN CHOICE, entry 20). -/
abbrev State.Faulted (s : State) : Prop := s.block.mode = .halted

/-- R101, R71: a run hangs from here if it is SETTLING for ever. -/
def State.Hangs (s : State) : Prop :=
  ∀ n : Nat, ∃ t : State, Sys2Proof.core.run n s = .next t ∧ t.block.mode = .settling

/-- R70: of the samples `ss` that the settle steps read (`ss[0]` is `s1`), the `len` that end with number `m` are all
released, and there are that many. -/
abbrev SettledBy (len : Nat) (ss : List Nibble) (m : Nat) : Prop :=
  len ≤ m ∧ m ≤ ss.length ∧ ∀ v ∈ (ss.take m).drop (m - len), v = Config.noButton

/-- R69: while MODE = SETTLING the captured mask is no NO_BUTTON and each countdown is in 1..DEB_START. -/
abbrev Block.Inv (P : Params) (b : Block) : Prop :=
  b.mode = .settling →
    b.bcap ≠ Config.noButton ∧ (1 ≤ b.k0.toNat ∧ b.k0.toNat ≤ P.debStart.toNat)
      ∧ (1 ≤ b.k1.toNat ∧ b.k1.toNat ≤ P.debStart.toNat) ∧ (1 ≤ b.k2.toNat ∧ b.k2.toNat ≤ P.debStart.toNat)

/-- The invariant of the machine: R69's, and a fault is on record exactly in mode HALTED (R82, R83). -/
abbrev State.Inv (s : State) : Prop :=
  s.block.Inv Config.params ∧ (s.block.mode = .halted ↔ s.record.fault ≠ none)

end Sys2Proof.Machine
end

