-- ==== Sys2Proof/Certificates/Slice0/Obligations.lean ====
section
/-! DEFINITION. The statements for the provers, each a rule of spec/ or derived from one. -/

open Sys2Proof Sys2Proof.Machine

/-! ## Notation of the rules: conversions -/

/-- R7: the conversions between Word16 and integer, and that they are inverse. -/
def Obligations.WordConversionsInverse : Prop :=
  (∀ w : Word16, w.toInt = w.d0.toNat + 16 * w.d1.toNat + 256 * w.d2.toNat + 4096 * w.d3.toNat ∧ w.toInt ≤ 65535) ∧
  (∀ n : Int,
    ((Word16.fromInt n).d0.toNat : Int) = n % 65536 % 16 ∧
    ((Word16.fromInt n).d1.toNat : Int) = n % 65536 / 16 % 16 ∧
    ((Word16.fromInt n).d2.toNat : Int) = n % 65536 / 256 % 16 ∧
    ((Word16.fromInt n).d3.toNat : Int) = n % 65536 / 4096 % 16) ∧
  (∀ w : Word16, Word16.fromInt w.toInt = w) ∧
  ∀ n : Int, ((Word16.fromInt n).toInt : Int) = n % 65536

/-! ## Encoding -/

/-- R40: the decoder field by field, the encoder, and that they are inverse on commands. -/
def Obligations.DecodeEncodeAgree : Prop :=
  (∀ (op c n : Nibble) (i : Instr), decode (op ++ c ++ n : CmdWord) = .command i ↔
    (op = 1 ∧ i = .wrn c n) ∨ (op = 2 ∧ n = 0 ∧ i = .rdn c) ∨
    (op = 3 ∧ c = 0 ∧ n = 0 ∧ i = .add16) ∨ (op = 4 ∧ c = 0 ∧ n = 0 ∧ i = .sub16) ∨
    (op = 5 ∧ c = 0 ∧ n = 0 ∧ i = .stepup) ∨ (op = 6 ∧ c = 0 ∧ n = 0 ∧ i = .stepdn) ∨
    (op = 7 ∧ c = 0 ∧ n = 0 ∧ i = .poll)) ∧
  (∀ c n : Nibble, encode (.wrn c n) = (1#4 ++ c ++ n : CmdWord)) ∧
  (∀ c : Nibble, encode (.rdn c) = (2#4 ++ c ++ 0#4 : CmdWord)) ∧
  encode .add16 = 0x300 ∧ encode .sub16 = 0x400 ∧ encode .stepup = 0x500 ∧ encode .stepdn = 0x600 ∧
  encode .poll = 0x700 ∧
  (∀ i : Instr, decode (encode i) = .command i) ∧
  ∀ (w : CmdWord) (i : Instr), decode w = .command i → encode i = w

/-- R37, R38: a word decodes to a command exactly when its fields pass the check. -/
def Obligations.DecodesExactlyWellFormedFields : Prop :=
  ∀ w : CmdWord, (∃ i, decode w = .command i) ↔ (fields w).wf = true

/-- R39: of the 4096 words, 277 decode to a command: 256 WRN, 16 RDN and five others. -/
def Obligations.LegalWordCount : Prop :=
  ((List.range 4096).filter fun k => (decodeTableWord 12 k).isSome).length = 277

/-- 95_test_vectors.md 2.8: words written out and what they decode to. -/
def Obligations.SampleWordsDecode : Prop :=
  decode 0b000101111111 = .command (.wrn 7 15) ∧ decode 0b000110000000 = .command (.wrn 8 0) ∧
  decode 0b001001110000 = .command (.rdn 7) ∧ decode 0b001010000000 = .command (.rdn 8) ∧
  decode 0b001100000000 = .command .add16 ∧ decode 0b010000000000 = .command .sub16 ∧
  decode 0b010100000000 = .command .stepup ∧ decode 0b011000000000 = .command .stepdn ∧
  decode 0b011100000000 = .command .poll ∧
  decode 0b000000000000 = .illegal .reservedOpcode ∧ decode 0b100000000000 = .illegal .reservedOpcode ∧
  decode 0b001011110001 = .illegal .nonzeroField ∧ decode 0b001100010000 = .illegal .nonzeroField

/-- R42: the eight cell names of the text and the addresses 0 to 7 they stand for. -/
def cellNameTexts : List (List Char × CellAddr) :=
  [(['A', '0'], 0), (['A', '1'], 1), (['A', '2'], 2), (['A', '3'], 3),
   (['B', '0'], 4), (['B', '1'], 5), (['B', '2'], 6), (['B', '3'], 7)]

/-- R42: the textual form of every command assembles to that command; in the text of RDN and WRN the cell names A0 to A3
and B0 to B3 stand for the addresses 0 to 7; those are the addresses of the eight cells. That a cell name stands only where a
cell address does, and the blanks between the words of a line, are the model's choice (entry 17). -/
def Obligations.TextAssemblesToCommand : Prop :=
  (∀ i : Instr, assembleLine (textOf i) = some [i]) ∧
  (∀ e ∈ cellNameTexts,
    cellOperand e.1 = some e.2 ∧
    assembleLine (['R', 'D', 'N', ' '] ++ e.1) = some [.rdn e.2] ∧
    ∀ n : Nibble, assembleLine (['W', 'R', 'N', ' '] ++ e.1 ++ [',', ' '] ++ numeral n) = some [.wrn e.2 n]) ∧
  (∀ cell : CellName, cellAt (addrOf cell) = some cell) ∧
  [CellName.a0, .a1, .a2, .a3, .b0, .b1, .b2, .b3].map addrOf = [0, 1, 2, 3, 4, 5, 6, 7]

/-! ## The arithmetic engine -/

/-- R45: the slice primitive. -/
def Obligations.Add4SumAndCarry : Prop :=
  ∀ x y : Nibble,
    (add4 x y).1.toNat = (x.toNat + y.toNat) % 16 ∧
    ((add4 x y).2 = true ↔ 16 ≤ x.toNat + y.toNat) ∧
    x.toNat + y.toNat = (add4 x y).1.toNat + 16 * (add4 x y).2.toNat

/-- R48 for one digit: the fix stage `f` on the first operand's digit `p`, CF being `cf` before it. -/
def FixedAsRuled (cf : Bool) (p : Nibble) (f : FixTrace) : Prop :=
  f.cin = cf ∧ (cf = true → (f.x, f.c1) = add4 p 1) ∧ (cf = false → f.x = p ∧ f.c1 = false) ∧
  f.cf = f.c1 ∧ (f.c1 = true ↔ f.cin = true ∧ p = 15)

/-- R49 for one digit: the add stage `t` after the fix stage `f`, on the second operand's digit `q`. -/
def AddedAsRuled (f : FixTrace) (q : Nibble) (t : AddTrace) : Prop :=
  (t.r, t.c2) = add4 f.x q ∧ (t.c2 = true → t.cf = true) ∧ (t.c2 = false → t.cf = f.cf) ∧ t.cf = (f.c1 || t.c2)

/-- R46 to R49: the eight micro-steps of a pass, whatever CF held before it. -/
def Obligations.PassMicroSteps : Prop :=
  ∀ (cf : Bool) (p q : Word16), let t := runPass cf p q
    t.clr = false ∧
    (t.add0.r, t.add0.c2) = add4 p.d0 q.d0 ∧ t.add0.cf = t.add0.c2 ∧
    FixedAsRuled t.add0.cf p.d1 t.fix1 ∧ AddedAsRuled t.fix1 q.d1 t.add1 ∧
    FixedAsRuled t.add1.cf p.d2 t.fix2 ∧ AddedAsRuled t.fix2 q.d2 t.add2 ∧
    FixedAsRuled t.add2.cf p.d3 t.fix3 ∧ AddedAsRuled t.fix3 q.d3 t.add3

/-- R52: each slice behaves as a full 4-bit adder with carry-in. -/
def Obligations.DigitLaw : Prop :=
  ∀ (cf : Bool) (p q : Word16), let t := runPass cf p q
    p.d0.toNat + q.d0.toNat = t.add0.r.toNat + 16 * t.add0.cf.toNat ∧
    p.d1.toNat + q.d1.toNat + t.fix1.cin.toNat = t.add1.r.toNat + 16 * t.add1.cf.toNat ∧
    p.d2.toNat + q.d2.toNat + t.fix2.cin.toNat = t.add2.r.toNat + 16 * t.add2.cf.toNat ∧
    p.d3.toNat + q.d3.toNat + t.fix3.cin.toNat = t.add3.r.toNat + 16 * t.add3.cf.toNat ∧
    t.fix1.cin = t.add0.cf ∧ t.fix2.cin = t.add1.cf ∧ t.fix3.cin = t.add2.cf

/-- R53: the two carries of a slice are never both 1, so CF after it is their sum, and setting is as good as OR-ing. -/
def Obligations.SliceCarriesExclusive : Prop :=
  ∀ (cf : Bool) (p q : Word16), let t := runPass cf p q
    ∀ s ∈ [(t.fix1, t.add1), (t.fix2, t.add2), (t.fix3, t.add3)],
      ¬ (s.1.c1 = true ∧ s.2.c2 = true) ∧ s.2.cf.toNat = s.1.c1.toNat + s.2.c2.toNat ∧ s.2.cf = (s.1.cf || s.2.c2)

/-- R54: add16 is the wraparound sum, CF is its carry, and the laws of its result. -/
def Obligations.SumLaw : Prop :=
  (∀ (cf : Bool) (a b : Word16),
    (add16 a b).toInt = (a.toInt + b.toInt) % 65536 ∧
    (runPass cf a b).result = add16 a b ∧
    (runPass cf a b).cfOut.toNat = (a.toInt + b.toInt) / 65536) ∧
  (∀ a b : Word16, add16 a b = add16 b a) ∧
  (∃ a b : Word16, runPass false a b ≠ runPass false b a) ∧
  (∀ a b c : Word16, add16 (add16 a b) c = add16 a (add16 b c)) ∧
  ∀ a : Word16, add16 a (Word16.fromInt 0) = a ∧ add16 (Word16.fromInt 0) a = a

/-- R57: inversion and negation. -/
def Obligations.NegationLaw : Prop :=
  ∀ w : Word16,
    (inv16 w).d0.toNat = 15 - w.d0.toNat ∧ (inv16 w).d1.toNat = 15 - w.d1.toNat ∧
    (inv16 w).d2.toNat = 15 - w.d2.toNat ∧ (inv16 w).d3.toNat = 15 - w.d3.toNat ∧
    inv16 w = ⟨w.d0 ^^^ 15, w.d1 ^^^ 15, w.d2 ^^^ 15, w.d3 ^^^ 15⟩ ∧
    Word16.one = Word16.fromInt 1 ∧
    neg16 w = add16 (inv16 w) Word16.one ∧
    (inv16 w).toInt = 65535 - w.toInt ∧ (neg16 w).toInt = (65536 - w.toInt) % 65536

/-- R60: sub16 is the wraparound difference. -/
def Obligations.DifferenceLaw : Prop :=
  ∀ a b : Word16, ((sub16 a b).toInt : Int) = ((a.toInt : Int) - b.toInt) % 65536

/-- R61: the signed reading of sums and differences: each is right modulo 65536, in -32768..32767. -/
def Obligations.SignedReadingAgrees : Prop :=
  ∀ a b : Word16,
    (-32768 ≤ a.toSigned ∧ a.toSigned ≤ 32767) ∧
    ((add16 a b).toSigned - (a.toSigned + b.toSigned)) % 65536 = 0 ∧
    ((sub16 a b).toSigned - (a.toSigned - b.toSigned)) % 65536 = 0

/-- R98: writing each digit of A as soon as its add stage has produced it gives the same register and trace. -/
def Obligations.InPlaceUpdateSafe : Prop :=
  ∀ (cf : Bool) (a q : Word16), passInPlace cf a q = ((runPass cf a q).result, runPass cf a q)

/-- R38 for a command with no operand, opcode `op`, the one word `w`: `w` is its encoding and every other word with that
opcode is Illegal. -/
def OneWordOnly (i : Instr) (op : Nibble) (w : CmdWord) : Prop :=
  encode i = w ∧ decode w = .command i ∧
    ∀ c n : Nibble, ¬ (c = 0 ∧ n = 0) → ∃ why, decode (op ++ c ++ n : CmdWord) = .illegal why

/-- R56: ADD16 replaces A by the wraparound sum and CF by the carry out of digit 3; nothing else of the block or its
environment changes, and no fault is raised (what the model records of the trace is stated in ArithmeticRecordsItsTraces). -/
def Obligations.Add16AddsBIntoA : Prop :=
  OneWordOnly .add16 3 0x300 ∧
  (∀ s : State, ∃ t, exec .add16 s = .next t ∧
    t.block = { s.block with
      a := Word16.fromInt (s.block.a.toInt + s.block.b.toInt)
      cf := decide (65536 ≤ s.block.a.toInt + s.block.b.toInt) } ∧
    t = { s with block := t.block, record := t.record } ∧ t.record.fault = s.record.fault) ∧
  (∀ (cf : Bool) (a q : Word16), passInPlace cf a q = ((runPass cf a q).result, runPass cf a q)) ∧
  (∀ a : Word16, ∀ v ∈ (runPass false a (Word16.fromInt 0)).cfs, v = false) ∧
  ∀ v ∈ (runPass false (Word16.fromInt 2) (Word16.fromInt 2)).cfs, v = false

/-- R59: SUB16 replaces A by the wraparound difference in two passes; CF is left by the second and is no borrow; nothing
else of the block or its environment changes, and no fault is raised. -/
def Obligations.Sub16SubtractsBFromA : Prop :=
  OneWordOnly .sub16 4 0x400 ∧
  (∀ s : State, ∃ t, exec .sub16 s = .next t ∧
    t.block = { s.block with
      a := Word16.fromInt ((s.block.a.toInt : Int) - s.block.b.toInt)
      cf := decide (s.block.b.toInt ≤ s.block.a.toInt ∧ s.block.b.toInt ≠ 0) } ∧
    t.block.a = (runPass false s.block.a (runPass false (inv16 s.block.b) Word16.one).result).result ∧
    t.block.cf = (runPass false s.block.a (runPass false (inv16 s.block.b) Word16.one).result).cfOut ∧
    t = { s with block := t.block, record := t.record } ∧ t.record.fault = s.record.fault) ∧
  inv16 (Word16.fromInt 0) = Word16.fromInt 0xFFFF ∧ neg16 (Word16.fromInt 0) = Word16.fromInt 0 ∧
  (runPass false (inv16 (Word16.fromInt 0)) Word16.one).cfOut = true ∧
  neg16 (Word16.fromInt 0x8000) = Word16.fromInt 0x8000 ∧
  inv16 (Word16.fromInt 1) = Word16.fromInt 0xFFFE ∧ neg16 (Word16.fromInt 1) = Word16.fromInt 0xFFFF

/-- R51, R58: the traces the model records (entry 15): one pass for ADD16; for SUB16 the negating pass and then the adding
pass, each begun with a CLR. -/
def Obligations.ArithmeticRecordsItsTraces : Prop :=
  (∀ s : State, ∃ t, exec .add16 s = .next t ∧ t.record.trace = [runPass false s.block.a s.block.b] ∧
    t.block.a = (runPass false s.block.a s.block.b).result) ∧
  (∀ s : State, ∃ t, exec .sub16 s = .next t ∧ t.block.a = sub16 s.block.a s.block.b ∧
    t.record.trace = [runPass false (inv16 s.block.b) Word16.one, runPass false s.block.a (neg16 s.block.b)]) ∧
  ∀ (cf : Bool) (p q : Word16), (runPass cf p q).clr = false

/-- R62: ADD16 and SUB16 always complete, raise no fault, never change MODE and take no raw sample. -/
def Obligations.ArithmeticIsTotal : Prop :=
  ∀ (s : State) (i : Instr), i = .add16 ∨ i = .sub16 →
    ∃ t, exec i s = .next t ∧ t.record.fault = s.record.fault ∧ t.block.mode = s.block.mode ∧ t.raw = s.raw

/-- R95, R22: CF enters no result. ADD16 and SUB16 end in the same state whatever CF held; every other command does what
it does whatever CF holds, and keeps it. -/
def Obligations.CarryNeverLeaks : Prop :=
  ∀ (i : Instr) (s : State) (v : Bool), ∃ t, exec i s = .next t ∧
    exec i { s with block := { s.block with cf := v } } = .next
      (if i = .add16 ∨ i = .sub16 then t else { t with block := { t.block with cf := v } })

/-! ## The step adjustment -/

/-- R75: STEPUP adds 1 modulo 16 to the lowest digit of B; nothing else changes. -/
def Obligations.StepupIncrementsLowDigit : Prop :=
  OneWordOnly .stepup 5 0x500 ∧
  ∀ s : State, ∃ v : Nibble, v.toNat = (s.block.b.d0.toNat + 1) % 16 ∧
    exec .stepup s = .next { s with block := { s.block with b := { s.block.b with d0 := v } } }

/-- R76: STEPDN subtracts 1 modulo 16 from the lowest digit of B; nothing else changes. -/
def Obligations.StepdnDecrementsLowDigit : Prop :=
  OneWordOnly .stepdn 6 0x600 ∧
  ∀ s : State, ∃ v : Nibble, (v.toNat : Int) = ((s.block.b.d0.toNat : Int) - 1) % 16 ∧
    v = (add4 s.block.b.d0 15).1 ∧
    exec .stepdn s = .next { s with block := { s.block with b := { s.block.b with d0 := v } } }

/-- R77: up then down, down then up, and sixteen of either leave the state as it was; the wrap at the boundary. -/
def Obligations.StepRoundTrip : Prop :=
  ∀ s : State,
    execList [.stepup, .stepdn] s = .next s ∧ execList [.stepdn, .stepup] s = .next s ∧
    execList (List.replicate 16 .stepup) s = .next s ∧ execList (List.replicate 16 .stepdn) s = .next s ∧
    (s.block.b.d0 = 15 → exec .stepup s = .next { s with block := { s.block with b := { s.block.b with d0 := 0 } } }) ∧
    (s.block.b.d0 = 0 → exec .stepdn s = .next { s with block := { s.block with b := { s.block.b with d0 := 15 } } })

/-- R78, R79: HANDLE_BUTTON compares the whole mask; with identifiers as R5 requires, UP, DOWN, LEFT, RIGHT and NO_BUTTON
are told apart. -/
def Obligations.HandleButtonComparesMask : Prop :=
  (∀ (ids : ButtonIds) (btn : Nibble),
    (btn = ids.up → handleButton ids btn = some .stepup) ∧
    (btn ≠ ids.up ∧ btn = ids.down → handleButton ids btn = some .stepdn) ∧
    (btn ≠ ids.up ∧ btn ≠ ids.down → handleButton ids btn = none)) ∧
  ∀ ids : ButtonIds, ids.wf = true →
    handleButton ids ids.down = some .stepdn ∧ handleButton ids ids.left = none ∧ handleButton ids ids.right = none ∧
    handleButton ids Config.noButton = none

/-! ## Operand access -/

/-- The state a fault leaves (R83): MODE is HALTED, the fault is on the model's record, all else as before. -/
def haltedWith (f : Fault) (s : State) : State :=
  { s with block := { s.block with mode := .halted }, record := { s.record with fault := some f } }

/-- R24: the cell map, and that cells 8 to 15 fault. That the fault is a next state with MODE = HALTED (R82, R83) and that
its name and its word are kept in `record.fault` is the model's choice (entry 10). -/
def Obligations.CellMap : Prop :=
  ∀ s : State,
    (s.block.cell 0 = some s.block.a.d0 ∧ s.block.cell 1 = some s.block.a.d1 ∧ s.block.cell 2 = some s.block.a.d2 ∧
     s.block.cell 3 = some s.block.a.d3 ∧ s.block.cell 4 = some s.block.b.d0 ∧ s.block.cell 5 = some s.block.b.d1 ∧
     s.block.cell 6 = some s.block.b.d2 ∧ s.block.cell 7 = some s.block.b.d3) ∧
    ∀ c n : Nibble, 8 ≤ c.toNat → s.block.cell c = none ∧
      exec (.wrn c n) s = .next (haltedWith (.illegalCell (1#4 ++ c ++ n : CmdWord)) s) ∧
      exec (.rdn c) s = .next (haltedWith (.illegalCell (2#4 ++ c ++ 0#4 : CmdWord)) s)

/-- R80: WRN writes one cell and nothing else; on an unimplemented cell it faults and writes nothing. That the fault is a
next state with MODE = HALTED (R82, R83), kept in `record.fault`, is the model's choice (entry 10). -/
def Obligations.WrnWritesOneCell : Prop :=
  ∀ (c n : Nibble) (s : State),
    encode (.wrn c n) = (1#4 ++ c ++ n : CmdWord) ∧
    (c.toNat < 8 → ∃ t, exec (.wrn c n) s = .next t ∧ t.block.cell c = some n ∧
      (∀ c' : CellAddr, c' ≠ c → t.block.cell c' = s.block.cell c') ∧
      t = { s with block := { s.block with a := t.block.a, b := t.block.b } }) ∧
    (8 ≤ c.toNat → exec (.wrn c n) s = .next (haltedWith (.illegalCell (1#4 ++ c ++ n : CmdWord)) s))

/-- R81: RDN copies one cell into DOUT and changes nothing else; on an unimplemented cell it faults; a nonzero `n` field
is Illegal whatever the cell. That the fault is a next state with MODE = HALTED (R82, R83), kept in `record.fault`, is the
model's choice (entry 10). -/
def Obligations.RdnReadsOneCell : Prop :=
  ∀ (c n : Nibble) (s : State),
    encode (.rdn c) = (2#4 ++ c ++ 0#4 : CmdWord) ∧
    (c.toNat < 8 → ∃ v, s.block.cell c = some v ∧
      exec (.rdn c) s = .next { s with block := { s.block with dout := v } } ∧
      execList [.rdn c, .rdn c] s = exec (.rdn c) s) ∧
    (8 ≤ c.toNat → exec (.rdn c) s = .next (haltedWith (.illegalCell (2#4 ++ c ++ 0#4 : CmdWord)) s)) ∧
    (n ≠ 0 → ∃ why, decode (2#4 ++ c ++ n : CmdWord) = .illegal why)

/-- R43: the pseudo-instructions expand to four WRN, digit 0 first, and those load the register and nothing else. -/
def Obligations.PseudoInstructionsLoad : Prop :=
  ∀ (v : BitVec 16) (s : State),
    lda16 v = [.wrn 0 (v.extractLsb' 0 4), .wrn 1 (v.extractLsb' 4 4), .wrn 2 (v.extractLsb' 8 4),
               .wrn 3 (v.extractLsb' 12 4)] ∧
    ldb16 v = [.wrn 4 (v.extractLsb' 0 4), .wrn 5 (v.extractLsb' 4 4), .wrn 6 (v.extractLsb' 8 4),
               .wrn 7 (v.extractLsb' 12 4)] ∧
    (∃ a : Word16, a.toInt = v.toNat ∧ execList (lda16 v) s = .next { s with block := { s.block with a := a } }) ∧
    ∃ b : Word16, b.toInt = v.toNat ∧ execList (ldb16 v) s = .next { s with block := { s.block with b := b } }

/-! ## The debouncer -/

/-- R64, R65: POLL makes one raw read; a released read is returned at once, any other is captured exactly and the settle
loop is entered with the countdowns loaded. DEB_START is 15 in this build (entry 9); how the environment's samples stand in
State is the model's (entry 5). -/
def Obligations.PollSamplesOnce : Prop :=
  OneWordOnly .poll 7 0x700 ∧
  (∀ (s : State) (v : Nibble) (rest : List Nibble), s.raw.script = v :: rest → s.raw.sample = v) ∧
  ∀ s : State, exec .poll s = .next
    { s with
      raw := { script := s.raw.script.tail, reads := s.raw.reads + 1 }
      block :=
        if s.raw.sample = 15 then { s.block with dout := 15 }
        else { s.block with bcap := s.raw.sample, k0 := 15, k1 := 15, k2 := 15, mode := .settling } }

/-- R66: an unstable sample reloads the three countdowns and changes nothing else of the block. The RESET schedule and the
samples stand in State as entries 4 and 5 say. -/
def Obligations.UnstableSampleReloads : Prop :=
  ∀ s : State, s.block.mode = .settling → resetNow s.resets = false → s.raw.sample ≠ 15 →
    step s = .next
      { s with
        resets := tickResets s.resets
        raw := { script := s.raw.script.tail, reads := s.raw.reads + 1 }
        block := { s.block with k0 := 15, k1 := 15, k2 := 15 } }

/-- R67, R68: a released sample advances the nested countdown by one; the sample that takes K2 to 0 completes. The RESET
schedule and the samples stand in State as entries 4 and 5 say. -/
def Obligations.ReleasedSampleCountsDown : Prop :=
  ∀ s : State, s.block.mode = .settling → resetNow s.resets = false → s.raw.sample = 15 →
    1 ≤ s.block.k0.toNat → 1 ≤ s.block.k1.toNat → 1 ≤ s.block.k2.toNat →
    step s = .next
      { s with
        resets := tickResets s.resets
        raw := { script := s.raw.script.tail, reads := s.raw.reads + 1 }
        block :=
          if 1 < s.block.k0.toNat then { s.block with k0 := BitVec.ofNat 4 (s.block.k0.toNat - 1) }
          else if 1 < s.block.k1.toNat then { s.block with k0 := 15, k1 := BitVec.ofNat 4 (s.block.k1.toNat - 1) }
          else if 1 < s.block.k2.toNat then
            { s.block with k0 := 15, k1 := 15, k2 := BitVec.ofNat 4 (s.block.k2.toNat - 1) }
          else { s.block with k0 := 15, k1 := 15, k2 := 0, dout := s.block.bcap, mode := .ready } }

/-- R69: for every DEB_START of 1 or more, the three countdowns are one counter `rem`, loaded with SETTLE_LEN, lowered by 1
by a released sample, which completes at 1; and the invariant of SETTLING is kept. -/
def Obligations.ThreeCountdownsAreOneCounter : Prop :=
  ∀ (P : Params) (b : Block), P.wf = true →
    (b.loadCountdowns P).rem P = P.settleLen ∧
    (∀ v : Nibble, b.mode = .ready → (b.poll P v).Inv P ∧ (v ≠ 15 → (b.poll P v).rem P = P.settleLen)) ∧
    (b.mode = .settling → b.Inv P →
      (1 ≤ b.rem P ∧ b.rem P ≤ P.settleLen) ∧
      (b.rem P = 1 ↔ b.k0 = 1 ∧ b.k1 = 1 ∧ b.k2 = 1) ∧
      (∀ v : Nibble, (b.settle P v).Inv P) ∧
      (∀ v : Nibble, v ≠ 15 → (b.settle P v).mode = .settling ∧ (b.settle P v).rem P = P.settleLen) ∧
      (1 < b.rem P → (b.settle P 15).mode = .settling ∧ (b.settle P 15).rem P = b.rem P - 1) ∧
      (b.rem P = 1 → (b.settle P 15).mode = .ready ∧ (b.settle P 15).dout = b.bcap))

/-- R70: pollInput as a function of the raw samples `s0 :: ss`. Released at once: one read, 1111. Otherwise, with `m` the
end of the first run of SETTLE_LEN released samples of `ss`: s0 is returned after `m` settle steps and `m + 1` reads;
and while there is no such run, the POLL has not returned. SETTLE_LEN is 3375 because DEB_START is 15 in this build (entry 9).
No RESET comes; words and samples stand in State as entries 1, 4 and 5 say. -/
def Obligations.PollReturnsFirstRead : Prop :=
  ∀ (s : State) (s0 : Nibble) (ss : List Nibble) (rest : List CmdWord),
    s.block.mode = .ready → s.resets = [] → s.program = encode .poll :: rest → s.raw.script = s0 :: ss →
    (s0 = 15 → step s = .next
      { s with program := rest, raw := { script := ss, reads := s.raw.reads + 1 }, block := { s.block with dout := 15 } }) ∧
    (∀ m : Nat, s0 ≠ 15 → SettledBy 3375 ss m → (∀ m' < m, ¬ SettledBy 3375 ss m') →
      3375 ≤ m ∧
      Sys2Proof.core.run (m + 1) s = .next
        { s with
          program := rest
          raw := { script := ss.drop m, reads := s.raw.reads + (m + 1) }
          block := { s.block with dout := s0, bcap := s0, k0 := 15, k1 := 15, k2 := 0, mode := .ready } }) ∧
    ∀ n : Nat, s0 ≠ 15 → n ≤ ss.length → (∀ m ≤ n, ¬ SettledBy 3375 ss m) →
      ∃ t, Sys2Proof.core.run (n + 1) s = .next t ∧ t.block.mode = .settling ∧ t.program = rest ∧
        t.raw = { script := ss.drop n, reads := s.raw.reads + (n + 1) } ∧
        t.block.dout = s.block.dout ∧ t.block.bcap = s0

/-- R71: a button held for the next `n` samples keeps the block SETTLING through all of them: no command accepted, HALT
stays 0, nothing recorded, and no time-out however large `n` is. No RESET comes (entry 4). -/
def Obligations.HeldButtonNeverTimesOut : Prop :=
  ∀ (s : State) (n : Nat), s.block.mode = .settling → s.resets = [] → n ≤ s.raw.script.length →
    (∀ v ∈ s.raw.script.take n, v ≠ 15) →
    ∃ t, Sys2Proof.core.run n s = .next t ∧ t.busy = true ∧ t.halt = false ∧ t.program = s.program ∧
      t.record = s.record ∧ t.block.a = s.block.a ∧ t.block.b = s.block.b ∧ t.block.dout = s.block.dout

/-- R30, R68: a settle step touches only K0 to K2, DOUT and MODE of the block, and the HOST's word waits (entry 12). -/
def Obligations.SettleStepFrame : Prop :=
  ∀ s : State, s.block.mode = .settling → resetNow s.resets = false →
    ∃ t, step s = .next t ∧
      t = { s with
            resets := tickResets s.resets
            raw := { script := s.raw.script.tail, reads := s.raw.reads + 1 }
            block := { s.block with k0 := t.block.k0, k1 := t.block.k1, k2 := t.block.k2, dout := t.block.dout,
                                    mode := t.block.mode } }

/-- R63, R31: RAW is read only by an accepted POLL and by settle steps, one sample each, in order (entry 5). -/
def Obligations.RawReadOnlyByPollAndSettle : Prop :=
  ∀ s t : State, step s = .next t →
    t.raw = if resetNow s.resets = false ∧
        (s.block.mode = .settling ∨ (s.block.mode = .ready ∧ s.program.head? = some 0x700))
      then { script := s.raw.script.tail, reads := s.raw.reads + 1 } else s.raw

/-! ## Acceptance, control and faults -/

/-- R44: in READY with no RESET asserted a word is accepted: its command is performed, as `exec` says, on the state with
the word taken, or IllegalCommand is raised; in SETTLING and HALTED no word is taken. What a step does beside: the RESET
schedule comes one step nearer (entry 4), and a word not taken waits (entry 12). -/
def Obligations.StepRunsDecodedCommand : Prop :=
  ∀ s : State, resetNow s.resets = false →
    (∀ (w : CmdWord) (rest : List CmdWord) (i : Instr), s.block.mode = .ready → s.program = w :: rest →
      decode w = .command i → step s = exec i { s with program := rest, resets := tickResets s.resets }) ∧
    (∀ (w : CmdWord) (rest : List CmdWord) (why : IllegalWord), s.block.mode = .ready → s.program = w :: rest →
      decode w = .illegal why →
      step s = .next (haltedWith (.illegalCommand w) { s with program := rest, resets := tickResets s.resets })) ∧
    (s.block.mode = .settling ∨ s.block.mode = .halted → ∃ t, step s = .next t ∧ t.program = s.program)

/-- R30: commands take effect one at a time, completely, in the order presented: a list of commands that neither poll nor
fault, presented to a ready block, is performed by as many steps, each on the state its predecessor left. -/
def Obligations.CommandsTakeEffectInOrder : Prop :=
  ∀ (is : List Instr) (s : State) (rest : List CmdWord),
    s.block.mode = .ready → s.resets = [] → s.program = is.map encode ++ rest →
    (∀ i ∈ is, i ≠ .poll ∧ (∀ c n, i = .wrn c n → c.toNat < 8) ∧ (∀ c, i = .rdn c → c.toNat < 8)) →
    ∃ t, execList is { s with program := rest } = .next t ∧ Sys2Proof.core.run is.length s = .next t ∧
      t.block.mode = .ready ∧ t.program = rest

/-- R83: taking a fault sets MODE to HALTED and nothing else; HALT rises; only a command accepted in READY can fault. The
record of the fault is the model's own (entry 10). -/
def Obligations.FaultEntryChangesModeOnly : Prop :=
  (∀ (f : Fault) (s : State), raiseFault f s = haltedWith f s ∧ (raiseFault f s).halt = true ∧
    (raiseFault f s).block = { s.block with mode := .halted }) ∧
  (∀ s t : State, step s = .next t → t.block.mode = .halted → s.block.mode ≠ .halted →
    s.block.mode = .ready ∧ t.block = { s.block with mode := .halted } ∧
    ∃ w rest, s.program = w :: rest ∧ t.record.fault.map Fault.word = some w)

/-- R84, R87: HALTED is terminal: without RESET no step changes the block, reads RAW or takes a word; and it is no end. A step
in HALTED is a next state, the self-loop (entry 11); `EndedNormally` and `result` are of the state reached (entry 20). -/
def Obligations.HaltedUntilReset : Prop :=
  ∀ s : State, s.block.mode = .halted →
    (resetNow s.resets = false → step s = .next { s with resets := tickResets s.resets }) ∧
    (s.resets = [] → ∀ n : Nat, Sys2Proof.core.run n s = .next s) ∧
    ¬ s.EndedNormally ∧ s.result = none

/-- R86: decoding comes first: IllegalCell is raised only by a word that decodes to WRN or RDN, and a word with a bad
cell and a nonzero must-be-zero field is IllegalCommand; RESET wins over a command and over a settle step, and the HOST's
word still waits (entries 4 and 12). -/
def Obligations.FaultPriority : Prop :=
  (∀ (s t : State) (w : CmdWord), s.record.fault = none → step s = .next t → t.record.fault = some (.illegalCell w) →
    ∃ c, (∃ n, decode w = .command (.wrn c n)) ∨ decode w = .command (.rdn c)) ∧
  (∀ (s : State) (c n : Nibble) (rest : List CmdWord), s.block.mode = .ready → resetNow s.resets = false → n ≠ 0 →
    s.program = (2#4 ++ c ++ n : CmdWord) :: rest →
    ∃ t, step s = .next t ∧ t.record.fault = some (.illegalCommand (2#4 ++ c ++ n : CmdWord))) ∧
  ∀ s : State, resetNow s.resets = true → ∃ t, step s = .next t ∧ t.block.a = Config.params.resetA ∧
    t.block.b = Config.params.resetB ∧ t.block.mode = .ready ∧ t.raw = s.raw ∧ t.program = s.program

/-- R93: RESET, in every mode: A and B at their start values, MODE READY, BUSY and HALT 0; the default build's start values
are 0x0002 (entry 9). Nothing is said of the unspecified elements. RESET comes as entry 4 says. -/
def Obligations.ResetGivesResetState : Prop :=
  ∀ (s : State) (later : List Nat), s.resets = 0 :: later →
    ∃ t, step s = .next t ∧ t.block.a = Word16.fromInt 2 ∧ t.block.b = Word16.fromInt 2 ∧ t.block.mode = .ready ∧
      t.busy = false ∧ t.halt = false ∧ t.resets = later

/-- R21: the values the spec gives for reset, in the state the machine starts from. -/
def Obligations.StartStateAsSpecified : Prop :=
  State.reset.block.a = Word16.fromInt 2 ∧ State.reset.block.b = Word16.fromInt 2 ∧
  State.reset.block.mode = .ready ∧ State.reset.busy = false ∧ State.reset.halt = false

/-- R19, R14: BUSY and HALT are functions of MODE, and DOUT can be read exactly in READY. -/
def Obligations.OutputsFollowMode : Prop :=
  ∀ s : State, (s.busy = true ↔ s.block.mode = .settling) ∧ (s.halt = true ↔ s.block.mode = .halted) ∧
    (s.block.mode = .ready → s.hostDout = some s.block.dout) ∧ (s.block.mode ≠ .ready → s.hostDout = none)

/-- R15: the transitions of MODE, each with its cause; there is none from SETTLING to HALTED and none out of HALTED but
RESET. -/
def Obligations.ModeTransitions : Prop :=
  ∀ s t : State, step s = .next t →
    (resetNow s.resets = true → t.block.mode = .ready) ∧
    (resetNow s.resets = false →
      (s.block.mode = .ready → t.block.mode = .settling →
        ∃ rest, s.program = encode .poll :: rest ∧ s.raw.sample ≠ 15) ∧
      (s.block.mode = .ready → t.block.mode = .halted →
        ∃ w rest, s.program = w :: rest ∧
          ((∃ why, decode w = .illegal why) ∨
            ∃ c, 8 ≤ c.toNat ∧ ((∃ n, decode w = .command (.wrn c n)) ∨ decode w = .command (.rdn c)))) ∧
      (s.block.mode = .settling → t.block.mode ≠ .halted) ∧
      (s.block.mode = .settling → t.block.mode = .ready →
        s.raw.sample = 15 ∧ s.block.k0 = 1 ∧ s.block.k1 = 1 ∧ s.block.k2 = 1) ∧
      (s.block.mode = .halted → t.block.mode = .halted))

/-- The command a step without RESET performs: the one the presented word decodes to, in READY. -/
def Performs (s : State) (i : Instr) : Prop :=
  s.block.mode = .ready ∧ ∃ w rest, s.program = w :: rest ∧ decode w = .command i

/-- R11 to R14, R16: who may change A, B, CF, DOUT and BCAP. -/
def Obligations.OnlyTheseWriters : Prop :=
  ∀ s t : State, step s = .next t → resetNow s.resets = false →
    (t.block.a ≠ s.block.a → Performs s .add16 ∨ Performs s .sub16 ∨ ∃ c n, c.toNat < 4 ∧ Performs s (.wrn c n)) ∧
    (t.block.b ≠ s.block.b → Performs s .stepup ∨ Performs s .stepdn ∨
      ∃ c n, 4 ≤ c.toNat ∧ c.toNat < 8 ∧ Performs s (.wrn c n)) ∧
    (t.block.cf ≠ s.block.cf → Performs s .add16 ∨ Performs s .sub16) ∧
    (t.block.dout ≠ s.block.dout → (∃ c, Performs s (.rdn c)) ∨ Performs s .poll ∨
      (s.block.mode = .settling ∧ t.block.mode = .ready ∧ t.block.dout = s.block.bcap)) ∧
    (t.block.bcap ≠ s.block.bcap → Performs s .poll)

/-- R92: a HOST that presents no further command leaves a ready block as it is; such a step is a next state (entry 11),
and `EndedNormally` is of the state reached (entry 20). -/
def Obligations.SilentHostChangesNothing : Prop :=
  ∀ s : State, s.block.mode = .ready → s.program = [] → s.resets = [] →
    s.EndedNormally ∧ ∀ n : Nat, Sys2Proof.core.run n s = .next s

/-- R69 for the machine, and that a fault is on the model's record exactly in HALTED (entry 10): every step keeps it. -/
def Obligations.StepKeepsInvariant : Prop :=
  ∀ s t : State, s.Inv → step s = .next t → t.Inv

/-- The invariant holds of the state the machine starts from. -/
def Obligations.ResetStateMeetsInvariant : Prop := State.reset.Inv

/-- Every step has a next state: the model's step never faults or refuses (the block's faults are next states, R83,
entry 10), and so does every command. -/
def Obligations.EveryStepHasNextState : Prop :=
  (∀ s : State, ∃ t, step s = .next t) ∧ ∀ (i : Instr) (s : State), ∃ t, exec i s = .next t
end

