-- ==== Sys2Proof/Laws/Decode.lean ====
section
/-! SUPPORT. The fields of a command word and the word of three fields are inverse (30_encoding.md R35, R36). -/

namespace Sys2Proof

/-- R35: the value of the word `{op, c, n}`. -/
theorem append_toNat (op c n : Nibble) :
    (op ++ c ++ n : CmdWord).toNat = 256 * op.toNat + 16 * c.toNat + n.toNat := by
  have h1 : (op ++ c ++ n : CmdWord).toNat = (op ++ c : BitVec 8).toNat <<< 4 ||| n.toNat := BitVec.toNat_append ..
  have h2 : (op ++ c : BitVec 8).toNat = op.toNat <<< 4 ||| c.toNat := BitVec.toNat_append ..
  rw [h1, h2, ← Nat.shiftLeft_add_eq_or_of_lt c.isLt, ← Nat.shiftLeft_add_eq_or_of_lt n.isLt]
  simp only [Nat.shiftLeft_eq]
  omega

/-- The fields of a word put together from three fields are those fields. -/
@[simp] theorem fields_append (op c n : Nibble) : fields (op ++ c ++ n : CmdWord) = ⟨op, c, n⟩ := by
  have := op.isLt
  have := c.isLt
  have := n.isLt
  simp only [fields, Fields.mk.injEq]
  refine ⟨?_, ?_, ?_⟩ <;> apply BitVec.eq_of_toNat_eq <;>
    simp only [BitVec.extractLsb'_toNat, append_toNat, Nat.shiftRight_eq_div_pow] <;> omega

/-- A word is the word of its fields. -/
@[simp] theorem word_fields (w : CmdWord) : (fields w).word = w := by
  apply BitVec.eq_of_toNat_eq
  have := w.isLt
  simp only [Fields.word, append_toNat, fields, BitVec.extractLsb'_toNat, Nat.shiftRight_eq_div_pow]
  omega

end Sys2Proof
end

