-- ==== Sys2Proof/Laws/State.lean ====
section
/-! SUPPORT. One lemma per field per update of the state, true by rfl, so that no proof unfolds a record update. -/

namespace Sys2Proof.Machine

@[simp] theorem Block.setA_a (b : Block) (w : Word16) : (b.setA w).a = w := rfl
@[simp] theorem Block.setA_b (b : Block) (w : Word16) : (b.setA w).b = b.b := rfl
@[simp] theorem Block.setA_cf (b : Block) (w : Word16) : (b.setA w).cf = b.cf := rfl
@[simp] theorem Block.setA_dout (b : Block) (w : Word16) : (b.setA w).dout = b.dout := rfl
@[simp] theorem Block.setA_mode (b : Block) (w : Word16) : (b.setA w).mode = b.mode := rfl
@[simp] theorem Block.setA_bcap (b : Block) (w : Word16) : (b.setA w).bcap = b.bcap := rfl
@[simp] theorem Block.setA_k0 (b : Block) (w : Word16) : (b.setA w).k0 = b.k0 := rfl
@[simp] theorem Block.setA_k1 (b : Block) (w : Word16) : (b.setA w).k1 = b.k1 := rfl
@[simp] theorem Block.setA_k2 (b : Block) (w : Word16) : (b.setA w).k2 = b.k2 := rfl

@[simp] theorem Block.setB_a (b : Block) (w : Word16) : (b.setB w).a = b.a := rfl
@[simp] theorem Block.setB_b (b : Block) (w : Word16) : (b.setB w).b = w := rfl
@[simp] theorem Block.setB_cf (b : Block) (w : Word16) : (b.setB w).cf = b.cf := rfl
@[simp] theorem Block.setB_dout (b : Block) (w : Word16) : (b.setB w).dout = b.dout := rfl
@[simp] theorem Block.setB_mode (b : Block) (w : Word16) : (b.setB w).mode = b.mode := rfl
@[simp] theorem Block.setB_bcap (b : Block) (w : Word16) : (b.setB w).bcap = b.bcap := rfl
@[simp] theorem Block.setB_k0 (b : Block) (w : Word16) : (b.setB w).k0 = b.k0 := rfl
@[simp] theorem Block.setB_k1 (b : Block) (w : Word16) : (b.setB w).k1 = b.k1 := rfl
@[simp] theorem Block.setB_k2 (b : Block) (w : Word16) : (b.setB w).k2 = b.k2 := rfl

@[simp] theorem Block.setCF_a (b : Block) (v : Bool) : (b.setCF v).a = b.a := rfl
@[simp] theorem Block.setCF_b (b : Block) (v : Bool) : (b.setCF v).b = b.b := rfl
@[simp] theorem Block.setCF_cf (b : Block) (v : Bool) : (b.setCF v).cf = v := rfl
@[simp] theorem Block.setCF_dout (b : Block) (v : Bool) : (b.setCF v).dout = b.dout := rfl
@[simp] theorem Block.setCF_mode (b : Block) (v : Bool) : (b.setCF v).mode = b.mode := rfl
@[simp] theorem Block.setCF_bcap (b : Block) (v : Bool) : (b.setCF v).bcap = b.bcap := rfl
@[simp] theorem Block.setCF_k0 (b : Block) (v : Bool) : (b.setCF v).k0 = b.k0 := rfl
@[simp] theorem Block.setCF_k1 (b : Block) (v : Bool) : (b.setCF v).k1 = b.k1 := rfl
@[simp] theorem Block.setCF_k2 (b : Block) (v : Bool) : (b.setCF v).k2 = b.k2 := rfl

@[simp] theorem Block.setDOUT_a (b : Block) (v : Nibble) : (b.setDOUT v).a = b.a := rfl
@[simp] theorem Block.setDOUT_b (b : Block) (v : Nibble) : (b.setDOUT v).b = b.b := rfl
@[simp] theorem Block.setDOUT_cf (b : Block) (v : Nibble) : (b.setDOUT v).cf = b.cf := rfl
@[simp] theorem Block.setDOUT_dout (b : Block) (v : Nibble) : (b.setDOUT v).dout = v := rfl
@[simp] theorem Block.setDOUT_mode (b : Block) (v : Nibble) : (b.setDOUT v).mode = b.mode := rfl
@[simp] theorem Block.setDOUT_bcap (b : Block) (v : Nibble) : (b.setDOUT v).bcap = b.bcap := rfl
@[simp] theorem Block.setDOUT_k0 (b : Block) (v : Nibble) : (b.setDOUT v).k0 = b.k0 := rfl
@[simp] theorem Block.setDOUT_k1 (b : Block) (v : Nibble) : (b.setDOUT v).k1 = b.k1 := rfl
@[simp] theorem Block.setDOUT_k2 (b : Block) (v : Nibble) : (b.setDOUT v).k2 = b.k2 := rfl

@[simp] theorem Block.setMode_a (b : Block) (m : Mode) : (b.setMode m).a = b.a := rfl
@[simp] theorem Block.setMode_b (b : Block) (m : Mode) : (b.setMode m).b = b.b := rfl
@[simp] theorem Block.setMode_cf (b : Block) (m : Mode) : (b.setMode m).cf = b.cf := rfl
@[simp] theorem Block.setMode_dout (b : Block) (m : Mode) : (b.setMode m).dout = b.dout := rfl
@[simp] theorem Block.setMode_mode (b : Block) (m : Mode) : (b.setMode m).mode = m := rfl
@[simp] theorem Block.setMode_bcap (b : Block) (m : Mode) : (b.setMode m).bcap = b.bcap := rfl
@[simp] theorem Block.setMode_k0 (b : Block) (m : Mode) : (b.setMode m).k0 = b.k0 := rfl
@[simp] theorem Block.setMode_k1 (b : Block) (m : Mode) : (b.setMode m).k1 = b.k1 := rfl
@[simp] theorem Block.setMode_k2 (b : Block) (m : Mode) : (b.setMode m).k2 = b.k2 := rfl

@[simp] theorem Block.setBCAP_a (b : Block) (v : Nibble) : (b.setBCAP v).a = b.a := rfl
@[simp] theorem Block.setBCAP_b (b : Block) (v : Nibble) : (b.setBCAP v).b = b.b := rfl
@[simp] theorem Block.setBCAP_cf (b : Block) (v : Nibble) : (b.setBCAP v).cf = b.cf := rfl
@[simp] theorem Block.setBCAP_dout (b : Block) (v : Nibble) : (b.setBCAP v).dout = b.dout := rfl
@[simp] theorem Block.setBCAP_mode (b : Block) (v : Nibble) : (b.setBCAP v).mode = b.mode := rfl
@[simp] theorem Block.setBCAP_bcap (b : Block) (v : Nibble) : (b.setBCAP v).bcap = v := rfl
@[simp] theorem Block.setBCAP_k0 (b : Block) (v : Nibble) : (b.setBCAP v).k0 = b.k0 := rfl
@[simp] theorem Block.setBCAP_k1 (b : Block) (v : Nibble) : (b.setBCAP v).k1 = b.k1 := rfl
@[simp] theorem Block.setBCAP_k2 (b : Block) (v : Nibble) : (b.setBCAP v).k2 = b.k2 := rfl

@[simp] theorem Block.setK_a (b : Block) (x y z : Nibble) : (b.setK x y z).a = b.a := rfl
@[simp] theorem Block.setK_b (b : Block) (x y z : Nibble) : (b.setK x y z).b = b.b := rfl
@[simp] theorem Block.setK_cf (b : Block) (x y z : Nibble) : (b.setK x y z).cf = b.cf := rfl
@[simp] theorem Block.setK_dout (b : Block) (x y z : Nibble) : (b.setK x y z).dout = b.dout := rfl
@[simp] theorem Block.setK_mode (b : Block) (x y z : Nibble) : (b.setK x y z).mode = b.mode := rfl
@[simp] theorem Block.setK_bcap (b : Block) (x y z : Nibble) : (b.setK x y z).bcap = b.bcap := rfl
@[simp] theorem Block.setK_k0 (b : Block) (x y z : Nibble) : (b.setK x y z).k0 = x := rfl
@[simp] theorem Block.setK_k1 (b : Block) (x y z : Nibble) : (b.setK x y z).k1 = y := rfl
@[simp] theorem Block.setK_k2 (b : Block) (x y z : Nibble) : (b.setK x y z).k2 = z := rfl

@[simp] theorem State.setBlock_block (s : State) (b : Block) : (s.setBlock b).block = b := rfl
@[simp] theorem State.setBlock_program (s : State) (b : Block) : (s.setBlock b).program = s.program := rfl
@[simp] theorem State.setBlock_resets (s : State) (b : Block) : (s.setBlock b).resets = s.resets := rfl
@[simp] theorem State.setBlock_raw (s : State) (b : Block) : (s.setBlock b).raw = s.raw := rfl
@[simp] theorem State.setBlock_nresets (s : State) (b : Block) : (s.setBlock b).nresets = s.nresets := rfl
@[simp] theorem State.setBlock_record (s : State) (b : Block) : (s.setBlock b).record = s.record := rfl

@[simp] theorem State.setProgram_block (s : State) (p : List CmdWord) : (s.setProgram p).block = s.block := rfl
@[simp] theorem State.setProgram_program (s : State) (p : List CmdWord) : (s.setProgram p).program = p := rfl
@[simp] theorem State.setProgram_resets (s : State) (p : List CmdWord) : (s.setProgram p).resets = s.resets := rfl
@[simp] theorem State.setProgram_raw (s : State) (p : List CmdWord) : (s.setProgram p).raw = s.raw := rfl
@[simp] theorem State.setProgram_nresets (s : State) (p : List CmdWord) : (s.setProgram p).nresets = s.nresets := rfl
@[simp] theorem State.setProgram_record (s : State) (p : List CmdWord) : (s.setProgram p).record = s.record := rfl

@[simp] theorem State.setResets_block (s : State) (r : List Nat) : (s.setResets r).block = s.block := rfl
@[simp] theorem State.setResets_program (s : State) (r : List Nat) : (s.setResets r).program = s.program := rfl
@[simp] theorem State.setResets_resets (s : State) (r : List Nat) : (s.setResets r).resets = r := rfl
@[simp] theorem State.setResets_raw (s : State) (r : List Nat) : (s.setResets r).raw = s.raw := rfl
@[simp] theorem State.setResets_nresets (s : State) (r : List Nat) : (s.setResets r).nresets = s.nresets := rfl
@[simp] theorem State.setResets_record (s : State) (r : List Nat) : (s.setResets r).record = s.record := rfl

@[simp] theorem State.setRaw_block (s : State) (r : RawPort) : (s.setRaw r).block = s.block := rfl
@[simp] theorem State.setRaw_program (s : State) (r : RawPort) : (s.setRaw r).program = s.program := rfl
@[simp] theorem State.setRaw_resets (s : State) (r : RawPort) : (s.setRaw r).resets = s.resets := rfl
@[simp] theorem State.setRaw_raw (s : State) (r : RawPort) : (s.setRaw r).raw = r := rfl
@[simp] theorem State.setRaw_nresets (s : State) (r : RawPort) : (s.setRaw r).nresets = s.nresets := rfl
@[simp] theorem State.setRaw_record (s : State) (r : RawPort) : (s.setRaw r).record = s.record := rfl

@[simp] theorem State.setTrace_block (s : State) (t : List PassTrace) : (s.setTrace t).block = s.block := rfl
@[simp] theorem State.setTrace_program (s : State) (t : List PassTrace) : (s.setTrace t).program = s.program := rfl
@[simp] theorem State.setTrace_resets (s : State) (t : List PassTrace) : (s.setTrace t).resets = s.resets := rfl
@[simp] theorem State.setTrace_raw (s : State) (t : List PassTrace) : (s.setTrace t).raw = s.raw := rfl
@[simp] theorem State.setTrace_nresets (s : State) (t : List PassTrace) : (s.setTrace t).nresets = s.nresets := rfl
@[simp] theorem State.setTrace_record (s : State) (t : List PassTrace) : (s.setTrace t).record = { s.record with trace := t } := rfl

@[simp] theorem State.setFault_block (s : State) (f : Option Fault) : (s.setFault f).block = s.block := rfl
@[simp] theorem State.setFault_program (s : State) (f : Option Fault) : (s.setFault f).program = s.program := rfl
@[simp] theorem State.setFault_resets (s : State) (f : Option Fault) : (s.setFault f).resets = s.resets := rfl
@[simp] theorem State.setFault_raw (s : State) (f : Option Fault) : (s.setFault f).raw = s.raw := rfl
@[simp] theorem State.setFault_nresets (s : State) (f : Option Fault) : (s.setFault f).nresets = s.nresets := rfl
@[simp] theorem State.setFault_record (s : State) (f : Option Fault) : (s.setFault f).record = { s.record with fault := f } := rfl

@[simp] theorem State.afterRead_block (s : State) : (s.afterRead).block = s.block := rfl
@[simp] theorem State.afterRead_program (s : State) : (s.afterRead).program = s.program := rfl
@[simp] theorem State.afterRead_resets (s : State) : (s.afterRead).resets = s.resets := rfl
@[simp] theorem State.afterRead_raw (s : State) : (s.afterRead).raw = s.raw.advance := rfl
@[simp] theorem State.afterRead_nresets (s : State) : (s.afterRead).nresets = s.nresets := rfl
@[simp] theorem State.afterRead_record (s : State) : (s.afterRead).record = s.record := rfl

@[simp] theorem raiseFault_block (f : Fault) (s : State) : (raiseFault f s).block = s.block.setMode .halted := rfl
@[simp] theorem raiseFault_program (f : Fault) (s : State) : (raiseFault f s).program = s.program := rfl
@[simp] theorem raiseFault_resets (f : Fault) (s : State) : (raiseFault f s).resets = s.resets := rfl
@[simp] theorem raiseFault_raw (f : Fault) (s : State) : (raiseFault f s).raw = s.raw := rfl
@[simp] theorem raiseFault_nresets (f : Fault) (s : State) : (raiseFault f s).nresets = s.nresets := rfl
@[simp] theorem raiseFault_record (f : Fault) (s : State) : (raiseFault f s).record = { s.record with fault := some f } := rfl

@[simp] theorem takeReset_block (s : State) : (takeReset s).block = Block.afterReset Config.params s.nresets := rfl
@[simp] theorem takeReset_program (s : State) : (takeReset s).program = s.program := rfl
@[simp] theorem takeReset_resets (s : State) : (takeReset s).resets = s.resets := rfl
@[simp] theorem takeReset_raw (s : State) : (takeReset s).raw = s.raw := rfl
@[simp] theorem takeReset_nresets (s : State) : (takeReset s).nresets = s.nresets + 1 := rfl
@[simp] theorem takeReset_record (s : State) : (takeReset s).record = { trace := [], fault := none } := rfl

@[simp] theorem settleStep_block (s : State) : (settleStep s).block = s.block.settle Config.params s.raw.sample := rfl
@[simp] theorem settleStep_program (s : State) : (settleStep s).program = s.program := rfl
@[simp] theorem settleStep_resets (s : State) : (settleStep s).resets = s.resets := rfl
@[simp] theorem settleStep_raw (s : State) : (settleStep s).raw = s.raw.advance := rfl
@[simp] theorem settleStep_nresets (s : State) : (settleStep s).nresets = s.nresets := rfl
@[simp] theorem settleStep_record (s : State) : (settleStep s).record = s.record := rfl

@[simp] theorem RawPort.advance_script (r : RawPort) : r.advance.script = r.script.tail := rfl
@[simp] theorem RawPort.advance_reads (r : RawPort) : r.advance.reads = r.reads + 1 := rfl
@[simp] theorem RawPort.sample_cons (v : Nibble) (vs : List Nibble) (n : Nat) :
    RawPort.sample { script := v :: vs, reads := n } = v := rfl

@[simp] theorem Block.afterReset_a (P : Params) (i : Nat) : (Block.afterReset P i).a = P.resetA := rfl
@[simp] theorem Block.afterReset_b (P : Params) (i : Nat) : (Block.afterReset P i).b = P.resetB := rfl
@[simp] theorem Block.afterReset_mode (P : Params) (i : Nat) : (Block.afterReset P i).mode = .ready := rfl

end Sys2Proof.Machine
end

