-- ==== Sys2Proof/Laws/Ops.lean ====
section
/-! SUPPORT. For each shared operation, one lemma that says what it does: operand cells, the debouncer's transitions, the
HOST's words, the RESET schedule. -/

namespace Sys2Proof.Machine

/-! ## Operand cells -/

/-- A cell address names a cell exactly when it is below 8. -/
theorem cellAt_isSome (c : CellAddr) : (cellAt c).isSome = decide (c.toNat < 8) := by
  revert c; decide

/-- The cell an address names is the one with that address. -/
theorem cellAt_eq_some (c : CellAddr) (cell : CellName) : cellAt c = some cell ↔ c = addrOf cell := by
  revert c; cases cell <;> decide

@[simp] theorem cellAt_addrOf (cell : CellName) : cellAt (addrOf cell) = some cell :=
  (cellAt_eq_some _ _).mpr rfl

/-- A write to a cell is read back, and no other cell sees it. -/
theorem readDigit_writeDigit (b : Block) (cell other : CellName) (v : Nibble) :
    (b.writeDigit cell v).readDigit other = if other = cell then v else b.readDigit other := by
  cases cell <;> cases other <;> rfl

/-- A write to a cell changes nothing of the block but A and B. -/
theorem writeDigit_frame (b : Block) (cell : CellName) (v : Nibble) :
    b.writeDigit cell v = { b with a := (b.writeDigit cell v).a, b := (b.writeDigit cell v).b } := by
  cases cell <;> rfl

/-! ## The debouncer -/

/-- The four things a released sample can do, from a state that meets R69's bounds. -/
theorem countDown_cases (P : Params) (b : Block) (h0 : 1 ≤ b.k0.toNat) (h1 : 1 ≤ b.k1.toNat) (h2 : 1 ≤ b.k2.toNat) :
    (1 < b.k0.toNat ∧ b.countDown P = b.setK (b.k0 - 1) b.k1 b.k2) ∨
    (b.k0 = 1 ∧ 1 < b.k1.toNat ∧ b.countDown P = b.setK P.debStart (b.k1 - 1) b.k2) ∨
    (b.k0 = 1 ∧ b.k1 = 1 ∧ 1 < b.k2.toNat ∧ b.countDown P = b.setK P.debStart P.debStart (b.k2 - 1)) ∨
    (b.k0 = 1 ∧ b.k1 = 1 ∧ b.k2 = 1 ∧ b.countDown P = (b.setK P.debStart P.debStart 0).complete) := by
  have key : ∀ k : Nibble, 1 ≤ k.toNat → (1 < k.toNat ∧ k - 1 ≠ 0) ∨ (k = 1 ∧ ¬ k - 1 ≠ 0) := by decide
  unfold Block.countDown
  rcases key _ h0 with ⟨l0, n0⟩ | ⟨e0, n0⟩
  · exact .inl ⟨l0, if_pos n0⟩
  · rcases key _ h1 with ⟨l1, n1⟩ | ⟨e1, n1⟩
    · exact .inr (.inl ⟨e0, l1, by rw [if_neg n0, if_pos n1]⟩)
    · rcases key _ h2 with ⟨l2, n2⟩ | ⟨e2, n2⟩
      · exact .inr (.inr (.inl ⟨e0, e1, l2, by rw [if_neg n0, if_neg n1, if_pos n2]⟩))
      · exact .inr (.inr (.inr ⟨e0, e1, e2, by rw [if_neg n0, if_neg n1, if_neg n2]⟩))

/-- R5: NO_BUTTON is `1111`. -/
theorem noButton_eq : Config.noButton = 15 := rfl

/-- POLL on a released sample returns NO_BUTTON at once. -/
theorem poll_released (P : Params) (b : Block) : b.poll P Config.noButton = b.setDOUT Config.noButton := if_pos rfl

/-- POLL on any other sample captures it and enters the settle loop. -/
theorem poll_press (P : Params) (b : Block) {v : Nibble} (h : v ≠ Config.noButton) :
    b.poll P v = ((b.setBCAP v).loadCountdowns P).setMode .settling := if_neg h

/-- A settle step of the debouncer on a released sample counts down. -/
theorem settle_released (P : Params) (b : Block) : b.settle P Config.noButton = b.countDown P := if_pos rfl

/-- A settle step on any other sample reloads the countdowns. -/
theorem settle_unstable (P : Params) (b : Block) {v : Nibble} (h : v ≠ Config.noButton) :
    b.settle P v = b.loadCountdowns P := if_neg h

/-- What a settle step can do from any state: reload on an unstable sample; count down; or complete, when every
countdown is at 1. -/
theorem settle_cases (P : Params) (v : Nibble) (b : Block) :
    (v ≠ Config.noButton ∧ b.settle P v = b.setK P.debStart P.debStart P.debStart) ∨
    (v = Config.noButton ∧ ∃ x y z, b.settle P v = b.setK x y z) ∨
    (v = Config.noButton ∧ b.k0 = 1 ∧ b.k1 = 1 ∧ b.k2 = 1 ∧
      b.settle P v = ((b.setK P.debStart P.debStart 0).setDOUT b.bcap).setMode .ready) := by
  have one : ∀ k : Nibble, ¬ k - 1 ≠ 0 → k = 1 := by decide
  by_cases h : v = Config.noButton
  · subst h
    rw [settle_released]
    unfold Block.countDown
    split_ifs with h0 h1 h2
    · exact .inr (.inl ⟨rfl, _, _, _, rfl⟩)
    · exact .inr (.inl ⟨rfl, _, _, _, rfl⟩)
    · exact .inr (.inl ⟨rfl, _, _, _, rfl⟩)
    · exact .inr (.inr ⟨rfl, one _ h0, one _ h1, one _ h2, rfl⟩)
  · exact .inl ⟨h, settle_unstable P b h⟩

/-- A settle step leaves A, B, CF and BCAP alone. -/
theorem settle_frame (P : Params) (v : Nibble) (b : Block) :
    b.settle P v = { b with k0 := (b.settle P v).k0, k1 := (b.settle P v).k1, k2 := (b.settle P v).k2,
                            dout := (b.settle P v).dout, mode := (b.settle P v).mode } := by
  rcases settle_cases P v b with ⟨_, h⟩ | ⟨_, x, y, z, h⟩ | ⟨_, _, _, _, h⟩ <;> rw [h] <;> rfl

/-- MODE after a settle step in SETTLING: READY exactly when it completes. -/
theorem settle_mode (P : Params) (v : Nibble) (b : Block) (hm : b.mode = .settling) :
    (b.settle P v).mode = .settling ∨
    ((b.settle P v).mode = .ready ∧ v = Config.noButton ∧ b.k0 = 1 ∧ b.k1 = 1 ∧ b.k2 = 1) := by
  rcases settle_cases P v b with ⟨_, h⟩ | ⟨_, x, y, z, h⟩ | ⟨e, e0, e1, e2, h⟩ <;> rw [h]
  · exact .inl hm
  · exact .inl hm
  · exact .inr ⟨rfl, e, e0, e1, e2⟩

/-! ## Every command has a next state -/

/-- What a command can do: it completes with MODE as it was, or it is a POLL that saw a press, or it is a WRN or RDN of an
unimplemented cell, which faults. HOST and RESET schedule are untouched by all of them. -/
theorem exec_cases (i : Instr) (s : State) : ∃ t, exec i s = .next t ∧
    t.program = s.program ∧ t.resets = s.resets ∧ t.nresets = s.nresets ∧
    ((t.block.mode = s.block.mode ∧ t.record.fault = s.record.fault) ∨
     (i = .poll ∧ s.raw.sample ≠ Config.noButton ∧
        t = s.afterRead.setBlock (((s.block.setBCAP s.raw.sample).loadCountdowns Config.params).setMode .settling)) ∨
     (t = raiseFault (.illegalCell (encode i)) s ∧ ∃ c, cellAt c = none ∧ (i = .rdn c ∨ ∃ n, i = .wrn c n))) := by
  cases i with
  | wrn c n =>
    simp only [exec, execWrn]
    cases h : cellAt c with
    | none => exact ⟨_, rfl, rfl, rfl, rfl, .inr (.inr ⟨rfl, c, h, .inr ⟨n, rfl⟩⟩)⟩
    | some cell => exact ⟨_, rfl, rfl, rfl, rfl, .inl ⟨by cases cell <;> rfl, rfl⟩⟩
  | rdn c =>
    simp only [exec, execRdn]
    cases h : cellAt c with
    | none => exact ⟨_, rfl, rfl, rfl, rfl, .inr (.inr ⟨rfl, c, h, .inl rfl⟩)⟩
    | some cell => exact ⟨_, rfl, rfl, rfl, rfl, .inl ⟨rfl, rfl⟩⟩
  | add16 => exact ⟨_, rfl, rfl, rfl, rfl, .inl ⟨rfl, rfl⟩⟩
  | sub16 => exact ⟨_, rfl, rfl, rfl, rfl, .inl ⟨rfl, rfl⟩⟩
  | stepup => exact ⟨_, rfl, rfl, rfl, rfl, .inl ⟨rfl, rfl⟩⟩
  | stepdn => exact ⟨_, rfl, rfl, rfl, rfl, .inl ⟨rfl, rfl⟩⟩
  | poll =>
    refine ⟨_, rfl, rfl, rfl, rfl, ?_⟩
    by_cases h : s.raw.sample = Config.noButton
    · exact .inl ⟨by simp [Block.poll, h], rfl⟩
    · exact .inr (.inl ⟨rfl, h, by simp [Block.poll, h]⟩)

/-- The commands other than POLL take no raw sample. -/
theorem exec_raw (i : Instr) (s t : State) (hi : i ≠ .poll) (h : exec i s = .next t) : t.raw = s.raw := by
  cases i with
  | wrn c n => simp only [exec, execWrn] at h; split at h <;> cases h <;> rfl
  | rdn c => simp only [exec, execRdn] at h; split at h <;> cases h <;> rfl
  | poll => exact absurd rfl hi
  | add16 => cases h; rfl
  | sub16 => cases h; rfl
  | stepup => cases h; rfl
  | stepdn => cases h; rfl

/-! ## One step -/

/-- What a step can do: RESET; a settle step; nothing, in HALTED or with no word; a command; or IllegalCommand. The last
four act on `u`, the state with the RESET schedule one step nearer and, for a word, the word taken. -/
theorem step_cases {s t : State} (h : step s = .next t) :
    (resetNow s.resets = true ∧ t = takeReset (s.setResets s.resets.tail)) ∨
    (resetNow s.resets = false ∧
      ((s.block.mode = .settling ∧ t = settleStep (s.setResets (tickResets s.resets))) ∨
       (s.block.mode = .halted ∧ t = s.setResets (tickResets s.resets)) ∨
       (s.block.mode = .ready ∧ s.program = [] ∧ t = s.setResets (tickResets s.resets)) ∨
       (s.block.mode = .ready ∧ ∃ w rest, s.program = w :: rest ∧
          ((∃ i, decode w = .command i ∧ exec i ((s.setResets (tickResets s.resets)).setProgram rest) = .next t) ∨
           (∃ why, decode w = .illegal why ∧
              t = raiseFault (.illegalCommand w) ((s.setResets (tickResets s.resets)).setProgram rest)))))) := by
  unfold step machineStep at h
  cases hr : resetNow s.resets with
  | true => rw [hr] at h; cases h; exact .inl ⟨rfl, rfl⟩
  | false =>
    rw [hr] at h
    refine .inr ⟨rfl, ?_⟩
    simp only [Bool.false_eq_true, if_false, modeStep, State.setResets_block] at h
    cases hm : s.block.mode with
    | settling => rw [hm] at h; cases h; exact .inl ⟨rfl, rfl⟩
    | halted => rw [hm] at h; cases h; exact .inr (.inl ⟨rfl, rfl⟩)
    | ready =>
      rw [hm] at h
      simp only [readyStep, State.setResets_program] at h
      cases hp : s.program with
      | nil => rw [hp] at h; cases h; exact .inr (.inr (.inl ⟨rfl, rfl, rfl⟩))
      | cons w rest =>
        rw [hp] at h
        refine .inr (.inr (.inr ⟨rfl, w, rest, rfl, ?_⟩))
        simp only [accept] at h
        cases hd : decode w with
        | command i => rw [hd] at h; exact .inl ⟨i, rfl, h⟩
        | illegal why => rw [hd] at h; cases h; exact .inr ⟨why, rfl, rfl⟩

/-- A step with no RESET asserted, in SETTLING. -/
theorem step_settling (s : State) (hm : s.block.mode = .settling) (hr : resetNow s.resets = false) :
    step s = .next (settleStep (s.setResets (tickResets s.resets))) := by
  simp [step, machineStep, hr, modeStep, hm]

/-- A step with no RESET asserted, in HALTED. -/
theorem step_halted (s : State) (hm : s.block.mode = .halted) (hr : resetNow s.resets = false) :
    step s = .next (s.setResets (tickResets s.resets)) := by
  simp [step, machineStep, hr, modeStep, hm]

/-- A step with no RESET asserted, in READY, with no word presented. -/
theorem step_idle (s : State) (hm : s.block.mode = .ready) (hr : resetNow s.resets = false) (hp : s.program = []) :
    step s = .next (s.setResets (tickResets s.resets)) := by
  simp [step, machineStep, hr, modeStep, hm, readyStep, hp]

/-- A step with no RESET asserted, in READY, with the word `w` presented. -/
theorem step_accepts (s : State) {w : CmdWord} {rest : List CmdWord} (hm : s.block.mode = .ready)
    (hr : resetNow s.resets = false) (hp : s.program = w :: rest) :
    step s = accept w ((s.setResets (tickResets s.resets)).setProgram rest) := by
  simp [step, machineStep, hr, modeStep, hm, readyStep, hp]

/-- With no RESET to come, the schedule stays as it is. -/
theorem setResets_tick (s : State) (h : s.resets = []) : s.setResets (tickResets s.resets) = s := by
  obtain ⟨b, p, r, w, n, k⟩ := s
  cases h
  rfl

end Sys2Proof.Machine
end

