-- ==== Sys2Proof/Laws/PerInstr.lean ====
section
/-! SUPPORT. Per instruction: its encoding matches its row of spec/opcode_table.json. -/

namespace Sys2Proof

/-- The `mask` and `match` of the instruction's row in spec/opcode_table.json. -/
def Laws.tableRow : Instr → CmdWord × CmdWord
  | .wrn _ _ => (0xF00, 0x100)
  | .rdn _ => (0xF0F, 0x200)
  | .add16 => (0xFFF, 0x300)
  | .sub16 => (0xFFF, 0x400)
  | .stepup => (0xFFF, 0x500)
  | .stepdn => (0xFFF, 0x600)
  | .poll => (0xFFF, 0x700)

/-- The encoded word has the bits the row fixes. -/
def Laws.MatchesTableRow.Statement (i : Instr) : Prop :=
  encode i &&& (Laws.tableRow i).1 = (Laws.tableRow i).2

theorem Laws.MatchesTableRow.wrn (c : CellAddr) (n : Nibble) : Laws.MatchesTableRow.Statement (.wrn c n) := by
  unfold Laws.MatchesTableRow.Statement; revert c n; decide

theorem Laws.MatchesTableRow.rdn (c : CellAddr) : Laws.MatchesTableRow.Statement (.rdn c) := by
  unfold Laws.MatchesTableRow.Statement; revert c; decide

theorem Laws.MatchesTableRow.add16 : Laws.MatchesTableRow.Statement .add16 := by
  unfold Laws.MatchesTableRow.Statement; decide

theorem Laws.MatchesTableRow.sub16 : Laws.MatchesTableRow.Statement .sub16 := by
  unfold Laws.MatchesTableRow.Statement; decide

theorem Laws.MatchesTableRow.stepup : Laws.MatchesTableRow.Statement .stepup := by
  unfold Laws.MatchesTableRow.Statement; decide

theorem Laws.MatchesTableRow.stepdn : Laws.MatchesTableRow.Statement .stepdn := by
  unfold Laws.MatchesTableRow.Statement; decide

theorem Laws.MatchesTableRow.poll : Laws.MatchesTableRow.Statement .poll := by
  unfold Laws.MatchesTableRow.Statement; decide

end Sys2Proof
end

