-- ==== Sys2Proof/Laws/Slice.lean ====
section
/-! SUPPORT. The stages of a slice, each said once (40_arith.md R45 to R49). -/

namespace Sys2Proof.Machine

/-- R45: the sum is never lost: the digit and sixteen times the carry. -/
theorem add4_value (x y : Nibble) : (add4 x y).1.toNat + 16 * (add4 x y).2.toNat = x.toNat + y.toNat := by
  revert x y; decide

/-- What an add stage computes: the digit and carry of add4, and CF set by the carry or kept. -/
theorem addStage_spec (cf : Bool) (x q : Nibble) :
    addStage cf x q = { r := (add4 x q).1, c2 := (add4 x q).2, cf := cf || (add4 x q).2 } := by
  simp only [addStage, cfSetIf]
  cases (add4 x q).2 <;> cases cf <;> rfl

/-- What a fix stage computes: the digit with the carry added in, and CF the carry of that. -/
theorem fixStage_spec (cf : Bool) (p : Nibble) :
    fixStage cf p = { cin := cf, x := p + (BitVec.ofBool cf).setWidth 4, c1 := cf && decide (p = 15),
                      cf := cf && decide (p = 15) } := by
  revert p; cases cf <;> decide

/-- A pass does not depend on the CF it finds (R46). -/
theorem runPass_ignores_cf (cf : Bool) (p q : Word16) : runPass cf p q = runPass false p q := rfl

/-- The exact value of one fix stage. -/
theorem fixStage_value (cf : Bool) (p : Nibble) :
    (fixStage cf p).x.toNat + 16 * (fixStage cf p).c1.toNat = p.toNat + cf.toNat := by
  revert p; cases cf <;> decide

/-- The digits of a Word16 are its base 16 digits: equal values, equal words. -/
theorem toInt_injective {v w : Word16} (h : v.toInt = w.toInt) : v = w := by
  obtain ⟨a0, a1, a2, a3⟩ := v
  obtain ⟨b0, b1, b2, b3⟩ := w
  simp only [Word16.toInt] at h
  have := a0.isLt; have := a1.isLt; have := a2.isLt; have := a3.isLt
  have := b0.isLt; have := b1.isLt; have := b2.isLt; have := b3.isLt
  have h0 : a0 = b0 := BitVec.eq_of_toNat_eq (by omega)
  have h1 : a1 = b1 := BitVec.eq_of_toNat_eq (by omega)
  have h2 : a2 = b2 := BitVec.eq_of_toNat_eq (by omega)
  have h3 : a3 = b3 := BitVec.eq_of_toNat_eq (by omega)
  rw [h0, h1, h2, h3]

end Sys2Proof.Machine
end

