-- ==== Sys2Proof/Tests/Slice0.lean ====
section
/-! SUPPORT. Tests of the model against the vectors of spec/95_test_vectors.md, the smoke tests of the checks, and for every
statement with hypotheses a concrete state that meets them. -/

namespace Sys2Proof.Tests

open Sys2Proof.Machine

/-- A READY block with A = `a` and B = `b`, every other element zero, the words `p` and the samples `raw` to come. -/
def ready (a b : Int) (p : List CmdWord) (raw : List Nibble) : State :=
  { State.reset with
    block := { State.reset.block with a := Word16.fromInt a, b := Word16.fromInt b }
    program := p, raw := { script := raw, reads := 0 } }

/-- A SETTLING block with BCAP = 1110 and the given countdowns, and the samples `raw` to come. -/
def settling (k2 k1 k0 : Nibble) (raw : List Nibble) : State :=
  { State.reset with
    block := { State.reset.block with mode := .settling, bcap := 14, k0, k1, k2 }
    program := [0x300], raw := { script := raw, reads := 0 } }

/-- The block of the state a step or a command leads to. -/
def after : Host.Outcome State Fault Refusal → Option Block
  | .next s => some s.block
  | _ => none

/-- The record of the state a step or a command leads to. -/
def recordAfter : Host.Outcome State Fault Refusal → Option Record
  | .next s => some s.record
  | _ => none

/-! ## The checks refuse ill-formed terms -/

theorem test_fields_wf_refuses :
    Fields.wf ⟨0, 0, 0⟩ = false ∧ Fields.wf ⟨8, 0, 0⟩ = false ∧ Fields.wf ⟨15, 15, 15⟩ = false ∧
    Fields.wf ⟨2, 15, 1⟩ = false ∧ Fields.wf ⟨3, 1, 0⟩ = false ∧ Fields.wf ⟨3, 0, 1⟩ = false ∧
    Fields.wf ⟨4, 15, 0⟩ = false ∧ Fields.wf ⟨5, 0, 15⟩ = false ∧ Fields.wf ⟨6, 1, 1⟩ = false ∧
    Fields.wf ⟨7, 0, 1⟩ = false := by decide

theorem test_fields_wf_admits :
    Fields.wf ⟨1, 15, 15⟩ = true ∧ Fields.wf ⟨2, 15, 0⟩ = true ∧ Fields.wf ⟨7, 0, 0⟩ = true := by decide

theorem test_params_wf_refuses : Params.wf { Config.params with debStart := 0 } = false := by decide

theorem test_buttons_wf_refuses :
    ButtonIds.wf ⟨15, 13, 11, 7⟩ = false ∧ ButtonIds.wf ⟨14, 15, 11, 7⟩ = false ∧ ButtonIds.wf ⟨14, 13, 15, 7⟩ = false ∧
    ButtonIds.wf ⟨14, 13, 11, 15⟩ = false ∧ ButtonIds.wf ⟨14, 14, 11, 7⟩ = false ∧ ButtonIds.wf ⟨14, 13, 14, 7⟩ = false ∧
    ButtonIds.wf ⟨14, 13, 11, 14⟩ = false ∧ ButtonIds.wf ⟨14, 13, 13, 7⟩ = false ∧ ButtonIds.wf ⟨14, 13, 11, 13⟩ = false ∧
    ButtonIds.wf ⟨14, 13, 11, 11⟩ = false ∧ ButtonIds.wf ⟨14, 13, 11, 7⟩ = true := by decide

/-! ## Decoding: words written out bit by bit from 30_encoding.md R37 -/

theorem test_decode_wrn : decode 0b0001_0100_0111 = .command (.wrn 4 7) := by decide
theorem test_decode_rdn : decode 0b0010_0111_0000 = .command (.rdn 7) := by decide
theorem test_decode_add16 : decode 0b0011_0000_0000 = .command .add16 := by decide
theorem test_decode_sub16 : decode 0b0100_0000_0000 = .command .sub16 := by decide
theorem test_decode_stepup : decode 0b0101_0000_0000 = .command .stepup := by decide
theorem test_decode_stepdn : decode 0b0110_0000_0000 = .command .stepdn := by decide
theorem test_decode_poll : decode 0b0111_0000_0000 = .command .poll := by decide

/-- 95_test_vectors.md 2.8, the Illegal words. -/
theorem test_decode_illegal :
    [0x000, 0x0FF, 0x800, 0xFFF].map decode = List.replicate 4 (.illegal .reservedOpcode) ∧
    [0x201, 0x2F1, 0x301, 0x310, 0x4F0, 0x701].map decode = List.replicate 6 (.illegal .nonzeroField) := by decide

theorem test_table_words :
    decodeTableWord 16 0x185 = some (.wrn 8 5) ∧ decodeTableWord 16 0x700 = some .poll ∧
    decodeTableWord 16 0x701 = none := by decide

/-! ## The first step after reset runs the word presented -/

theorem test_first_word_runs (i : Instr) (w : Nat) (h : decodeTableWord 16 w = some i) :
    step (State.reset.withFetchWord 16 w) =
      exec i { State.reset with program := [], block := State.reset.block.setMode .ready } := by
  have hd : decode (portWord 16 w) = .command i := by
    unfold decodeTableWord at h
    cases hw : decode (portWord 16 w) with
    | command j => rw [hw] at h; cases h; rfl
    | illegal y => rw [hw] at h; cases h
  show accept (portWord 16 w) _ = _
  unfold accept
  rw [hd]
  rfl

/-! ## Each command on a vector of the spec -/

/-- V2, the double overflow of E1 and C1: 0x0FFF + 0x0001. -/
theorem test_add16_v2 :
    after (exec .add16 (ready 0x0FFF 1 [] [])) = some (ready 0x1000 1 [] []).block ∧
    (runPass true (Word16.fromInt 0x0FFF) (Word16.fromInt 1)).cfs =
      [false, true, true, true, true, true, false, false] := by decide

/-- V16 against V2: the carry goes into the first operand, so the trace differs. -/
theorem test_add16_v16 :
    (runPass true (Word16.fromInt 1) (Word16.fromInt 0x0FFF)).cfs =
      [false, true, false, true, false, true, false, false] := by decide

/-- S4: the second pass of SUB16 does not see the first one's carry; the final CF is 0 although A >= B. -/
theorem test_sub16_s4 :
    after (exec .sub16 (ready 0xBEEF 0 [] [])) = some (ready 0xBEEF 0 [] []).block := by decide

/-- S2: a borrow through three digits; CF is 1. -/
theorem test_sub16_s2 :
    after (exec .sub16 (ready 0x1000 1 [] [])) = some { (ready 0x0FFF 1 [] []).block with cf := true } := by decide

/-- 2.4: no propagation whatever the higher digits. -/
theorem test_stepup : after (exec .stepup (ready 0 0x12FF [] [])) = some (ready 0 0x12F0 [] []).block := by decide

/-- 2.4: no borrow from B[1]. -/
theorem test_stepdn : after (exec .stepdn (ready 0 0x0010 [] [])) = some (ready 0 0x001F [] []).block := by decide

/-- 2.7: WRN 7, 15 and WRN 8, 5. -/
theorem test_wrn :
    after (exec (.wrn 7 15) (ready 2 2 [] [])) = some (ready 2 0xF002 [] []).block ∧
    recordAfter (exec (.wrn 8 5) (ready 2 2 [] [])) = some { trace := [], fault := some (.illegalCell 0x185) } := by decide

/-- 2.7: RDN 0 and RDN 15. -/
theorem test_rdn :
    after (exec (.rdn 0) State.reset) = some { State.reset.block with dout := 2 } ∧
    after (exec (.rdn 15) State.reset) = some { State.reset.block with mode := .halted } ∧
    recordAfter (exec (.rdn 15) State.reset) = some { trace := [], fault := some (.illegalCell 0x2F0) } := by decide

/-- Q1 and the first read of Q2. -/
theorem test_poll :
    after (exec .poll (ready 2 2 [] [15])) = some { (ready 2 2 [] []).block with dout := 15 } ∧
    after (exec .poll (ready 2 2 [] [14])) = some (settling 15 15 15 []).block := by decide

/-- 2.6: samples 225 (a double reload) and 3375 (completion); a bounce on the last possible sample (Q5). -/
theorem test_settle :
    after (step (settling 15 1 1 [15])) = some (settling 14 15 15 []).block ∧
    after (step (settling 1 1 1 [15])) = some { (settling 0 15 15 []).block with mode := .ready, dout := 14 } ∧
    after (step (settling 1 1 1 [14])) = some (settling 15 15 15 []).block := by decide

/-- 2.6: with DEB_START = 2 the countdowns after each of eight released samples. -/
theorem test_settle_mini :
    let P : Params := { Config.params with debStart := 2 }
    ((List.range 8).map fun n => (Nat.repeat (Block.settle P 15) (n + 1) (settling 2 2 2 []).block)).map
        (fun b => (b.k2, b.k1, b.k0)) =
      [(2, 2, 1), (2, 1, 2), (2, 1, 1), (1, 2, 2), (1, 2, 1), (1, 1, 2), (1, 1, 1), (0, 2, 2)] := by decide

/-- 2.9: an Illegal word in READY; the same word in HALTED and in SETTLING. -/
theorem test_illegal_word :
    after (step (ready 1 2 [0x380] [])) = some { (ready 1 2 [] []).block with mode := .halted } ∧
    after (step { ready 1 2 [0x000] [] with block := { State.reset.block with mode := .halted } }) =
      some { State.reset.block with mode := .halted } ∧
    after (step { settling 2 2 2 [15] with program := [0x000] }) = some (settling 2 2 1 []).block := by decide

/-- P4: the wrap of the counter and then the illegal word, in the form of R101. -/
theorem test_program_p4 :
    after (Sys2Proof.core.run 7 (ready 2 2 [0x10F, 0x11F, 0x12F, 0x13F, 0x300, 0x380, 0x300] [])) =
      some { (ready 1 2 [] []).block with cf := true, mode := .halted } := by decide

/-- R42, R43: lines of source. -/
theorem test_assemble :
    assembleLine "WRN B0, 0xF ; the step".toList = some [.wrn 4 15] ∧
    assembleLine "LDA16 0x1000".toList = some [.wrn 0 0, .wrn 1 0, .wrn 2 0, .wrn 3 1] ∧
    assembleLine "RDN 16".toList = none ∧ assembleLine "NOP".toList = none ∧ assembleLine "; only a comment".toList = some [] := by
  decide

/-! ## Witnesses: for each statement with hypotheses, values that meet them -/

theorem witness_DecodeEncodeAgree : decode 0x17F = .command (.wrn 7 15) := by decide

theorem witness_PassMicroSteps :
    (fixStage true 15).c1 = true ∧ (fixStage true 14).c1 = false ∧ (fixStage false 15).c1 = false ∧
    (addStage true 0 15).c2 = false ∧ (addStage false 1 15).c2 = true := by decide

theorem witness_OneWordOnly :
    ¬ ((0 : Nibble) = 0 ∧ (1 : Nibble) = 0) ∧ ¬ ((15 : Nibble) = 0 ∧ (0 : Nibble) = 0) := by decide

theorem witness_StepRoundTrip : (ready 0 0x0F [] []).block.b.d0 = 15 ∧ (ready 0 0xF0 [] []).block.b.d0 = 0 := by decide

/-- R5's illustration identifiers: an UP, a DOWN and another mask. -/
theorem witness_HandleButtonComparesMask :
    ButtonIds.wf ⟨14, 13, 11, 7⟩ = true ∧ (13 : Nibble) ≠ 14 ∧ (0 : Nibble) ≠ 14 ∧ (0 : Nibble) ≠ 13 := by decide

theorem witness_CellMap : 8 ≤ (8 : Nibble).toNat ∧ 8 ≤ (15 : Nibble).toNat := by decide

theorem witness_WrnWritesOneCell :
    (0 : Nibble).toNat < 8 ∧ (7 : Nibble).toNat < 8 ∧ 8 ≤ (8 : Nibble).toNat ∧ (0 : Nibble) ≠ 7 := by decide

theorem witness_RdnReadsOneCell :
    (0 : Nibble).toNat < 8 ∧ (7 : Nibble).toNat < 8 ∧ 8 ≤ (8 : Nibble).toNat ∧ (1 : Nibble) ≠ 0 := by decide

theorem witness_PollSamplesOnce :
    (ready 2 2 [] [15]).raw.script = [15] ∧ (ready 2 2 [] [15]).raw.sample = 15 ∧
    (ready 2 2 [] [14]).raw.sample ≠ 15 := by decide

theorem witness_UnstableSampleReloads :
    (settling 1 1 1 [14]).block.mode = .settling ∧ resetNow (settling 1 1 1 [14]).resets = false ∧
    (settling 1 1 1 [14]).raw.sample ≠ 15 ∧ (settling 1 1 1 [0]).raw.sample ≠ 15 := by decide

theorem witness_ReleasedSampleCountsDown :
    [settling 15 15 15 [15], settling 1 1 2 [15], settling 1 2 1 [15], settling 2 1 1 [15], settling 1 1 1 [15]].all
      (fun s => decide (s.block.mode = .settling ∧ resetNow s.resets = false ∧ s.raw.sample = 15 ∧
        1 ≤ s.block.k0.toNat ∧ 1 ≤ s.block.k1.toNat ∧ 1 ≤ s.block.k2.toNat)) = true := by decide

/-- At the bounds of the countdowns, `rem` is 1, 2 and 3375; a DEB_START of 1 is admitted too. -/
theorem witness_ThreeCountdownsAreOneCounter :
    Config.params.wf = true ∧ Params.wf { Config.params with debStart := 1 } = true ∧
    (ready 2 2 [] []).block.mode = .ready ∧ (0 : Nibble) ≠ 15 ∧
    [settling 1 1 1 [], settling 1 1 2 [], settling 15 15 15 []].all
      (fun s => decide (s.block.mode = .settling ∧ s.block.Inv Config.params)) = true ∧
    (settling 1 1 1 []).block.rem Config.params = 1 ∧ (settling 1 1 2 []).block.rem Config.params = 2 ∧
    (settling 15 15 15 []).block.rem Config.params = 3375 := by decide

/-- A clean release is settled after exactly its own length, and not before. -/
theorem settledBy_replicate (n : Nat) :
    SettledBy n (List.replicate n Config.noButton) n ∧ ∀ m < n, ¬ SettledBy n (List.replicate n Config.noButton) m := by
  refine ⟨⟨le_refl n, by rw [List.length_replicate], ?_⟩, fun m hm h => absurd h.1 (Nat.not_le.mpr hm)⟩
  intro v hv
  exact List.eq_of_mem_replicate (List.mem_of_mem_take (List.mem_of_mem_drop hv))

/-- Q1; Q2, a press and a clean release; and Q3, one sample short of it. -/
theorem witness_PollReturnsFirstRead :
    (∃ s : State, s.block.mode = .ready ∧ s.resets = [] ∧ s.program = encode .poll :: [] ∧ s.raw.script = 15 :: []) ∧
    (∃ s : State, s.block.mode = .ready ∧ s.resets = [] ∧ s.program = encode .poll :: [] ∧
      s.raw.script = 14 :: List.replicate 3375 Config.noButton ∧ (14 : Nibble) ≠ 15 ∧
      SettledBy 3375 (List.replicate 3375 Config.noButton) 3375 ∧
      (∀ m < 3375, ¬ SettledBy 3375 (List.replicate 3375 Config.noButton) m) ∧
      3374 ≤ (List.replicate 3375 Config.noButton).length ∧
      ∀ m ≤ 3374, ¬ SettledBy 3375 (List.replicate 3375 Config.noButton) m) := by
  refine ⟨⟨ready 2 2 [0x700] [15], rfl, rfl, by decide, rfl⟩,
    ⟨ready 2 2 [0x700] (14 :: List.replicate 3375 Config.noButton), rfl, rfl, by decide, rfl, by decide, ?_, ?_, ?_, ?_⟩⟩
  · exact (settledBy_replicate 3375).1
  · exact (settledBy_replicate 3375).2
  · rw [List.length_replicate]; omega
  · exact fun m hm => (settledBy_replicate 3375).2 m (by omega)

theorem witness_HeldButtonNeverTimesOut :
    let s := settling 1 1 1 [14, 0, 7]
    s.block.mode = .settling ∧ s.resets = [] ∧ 3 ≤ s.raw.script.length ∧ ∀ v ∈ s.raw.script.take 3, v ≠ 15 := by decide

theorem witness_SettleStepFrame :
    (settling 1 1 1 [15]).block.mode = .settling ∧ resetNow (settling 1 1 1 [15]).resets = false := by decide

theorem witness_RawReadOnlyByPollAndSettle :
    (∃ t, step (settling 1 1 1 [15]) = .next t) ∧ (∃ t, step (ready 2 2 [0x700] [15]) = .next t) ∧
    ∃ t, step (ready 2 2 [0x300] [15]) = .next t := ⟨⟨_, rfl⟩, ⟨_, rfl⟩, ⟨_, rfl⟩⟩

theorem witness_StepRunsDecodedCommand :
    resetNow (ready 2 2 [0x300] []).resets = false ∧ resetNow [1] = false ∧
    (ready 2 2 [0x300] []).block.mode = .ready ∧ (ready 2 2 [0x300] []).program = 0x300 :: [] ∧
    decode 0x300 = .command .add16 ∧ decode 0x301 = .illegal .nonzeroField ∧
    (settling 1 1 1 []).block.mode = .settling := by decide

theorem witness_CommandsTakeEffectInOrder :
    (ready 2 2 ([Instr.wrn 7 1, .rdn 0, .add16].map encode ++ [0x700]) []).block.mode = .ready ∧
    ∀ i ∈ [Instr.wrn 7 1, .rdn 0, .add16],
      i ≠ .poll ∧ (∀ c n, i = .wrn c n → c.toNat < 8) ∧ (∀ c, i = .rdn c → c.toNat < 8) := by
  refine ⟨rfl, ?_⟩
  simp

/-- A halting step by an Illegal word, by WRN 8 and by RDN 15. -/
theorem witness_FaultEntryChangesModeOnly :
    ∀ w ∈ [(0x000 : CmdWord), 0x185, 0x2F0], ∃ t, step (ready 2 2 [w] []) = .next t ∧ t.block.mode = .halted ∧
      (ready 2 2 [w] []).block.mode ≠ .halted := by
  intro w hw
  simp only [List.mem_cons, List.not_mem_nil, or_false] at hw
  rcases hw with rfl | rfl | rfl
  · exact ⟨_, rfl, rfl, by decide⟩
  · exact ⟨_, rfl, rfl, by decide⟩
  · exact ⟨_, rfl, rfl, by decide⟩

/-- A HALTED block. -/
def halted : State := { State.reset with block := { State.reset.block with mode := .halted } }

theorem witness_HaltedUntilReset :
    halted.block.mode = .halted ∧ resetNow halted.resets = false ∧ halted.resets = [] := by decide

theorem witness_FaultPriority :
    (∃ t, step (ready 2 2 [0x185] []) = .next t ∧ t.record.fault = some (.illegalCell 0x185)) ∧
    (ready 2 2 [0x185] []).record.fault = none ∧
    (ready 2 2 [0x2F1] []).program = (2#4 ++ 15#4 ++ 1#4 : CmdWord) :: [] ∧ resetNow [0] = true :=
  ⟨⟨_, rfl, rfl⟩, rfl, by decide, rfl⟩

/-- RESET in each mode. -/
theorem witness_ResetGivesResetState :
    [{ ready 2 2 [0x300] [] with resets := [0] }, { settling 1 1 1 [] with resets := [0] },
     { halted with resets := [0] }].all (fun s => decide (s.resets = 0 :: [])) = true := by decide

theorem witness_OutputsFollowMode : State.reset.block.mode = .ready ∧ halted.block.mode ≠ .ready := by decide

/-- Every transition of MODE happens: to SETTLING, to HALTED (three ways), back to READY, and by RESET. -/
theorem witness_ModeTransitions :
    (∃ t, step (ready 2 2 [0x700] [14]) = .next t ∧ t.block.mode = .settling) ∧
    (∃ t, step (ready 2 2 [0x000] []) = .next t ∧ t.block.mode = .halted) ∧
    (∃ t, step (ready 2 2 [0x180] []) = .next t ∧ t.block.mode = .halted) ∧
    (∃ t, step (ready 2 2 [0x280] []) = .next t ∧ t.block.mode = .halted) ∧
    (∃ t, step (settling 1 1 1 [15]) = .next t ∧ t.block.mode = .ready) ∧
    (∃ t, step halted = .next t ∧ t.block.mode = .halted) ∧
    ∃ t, step { halted with resets := [0] } = .next t ∧ t.block.mode = .ready :=
  ⟨⟨_, rfl, rfl⟩, ⟨_, rfl, rfl⟩, ⟨_, rfl, rfl⟩, ⟨_, rfl, rfl⟩, ⟨_, rfl, rfl⟩, ⟨_, rfl, rfl⟩, ⟨_, rfl, rfl⟩⟩

/-- Each of A, B, CF, DOUT and BCAP does change. -/
theorem witness_OnlyTheseWriters :
    (∃ t, step (ready 0xFFFF 2 [0x300] []) = .next t ∧ t.block.a ≠ (ready 0xFFFF 2 [] []).block.a ∧ t.block.cf ≠ false) ∧
    (∃ t, step (ready 2 2 [0x500] []) = .next t ∧ t.block.b ≠ (ready 2 2 [] []).block.b) ∧
    (∃ t, step (ready 2 2 [0x200] []) = .next t ∧ t.block.dout ≠ 0) ∧
    (∃ t, step (ready 2 2 [0x700] [14]) = .next t ∧ t.block.bcap ≠ 0) ∧ resetNow (ready 2 2 [] []).resets = false :=
  ⟨⟨_, rfl, by decide, by decide⟩, ⟨_, rfl, by decide⟩, ⟨_, rfl, by decide⟩, ⟨_, rfl, by decide⟩, rfl⟩

theorem witness_SilentHostChangesNothing :
    State.reset.block.mode = .ready ∧ State.reset.program = [] ∧ State.reset.resets = [] := by decide

theorem witness_StepKeepsInvariant :
    (settling 1 1 1 [15]).Inv ∧ (ready 2 2 [0x185] []).Inv ∧ (∃ t, step (settling 1 1 1 [15]) = .next t) ∧
    ∃ t, step (ready 2 2 [0x185] []) = .next t := ⟨by decide, by decide, ⟨_, rfl⟩, ⟨_, rfl⟩⟩

theorem witness_ArithmeticIsTotal :
    (Instr.add16 = .add16 ∨ Instr.add16 = .sub16) ∧ (Instr.sub16 = .add16 ∨ Instr.sub16 = .sub16) ∧
    ∃ t, exec .sub16 (ready 2 3 [] []) = .next t ∧ t.block.mode = .ready := ⟨by decide, by decide, ⟨_, rfl, rfl⟩⟩

/-- 0x1F + 0x0F: in slice 1 CF is 1, and the increment of digit 1 gives no carry. -/
theorem witness_SliceCarriesExclusive :
    (runPass false ⟨15, 1, 0, 0⟩ ⟨15, 0, 0, 0⟩).fix1.cin = true ∧
    (runPass false ⟨15, 1, 0, 0⟩ ⟨15, 0, 0, 0⟩).fix1.c1 = false := by decide

/-- The first and the last cell name (R42), among the names the statement speaks of. -/
theorem witness_TextAssemblesToCommand :
    (['A', '0'], 0) ∈ cellNameTexts ∧ (['B', '3'], 7) ∈ cellNameTexts ∧
    assembleLine "RDN A0".toList = some [.rdn 0] ∧ assembleLine "WRN B3, 15".toList = some [.wrn 7 15] := by decide

end Sys2Proof.Tests
end

section
/-! The conversions between a Word16 and an integer (00_scope.md R7). -/

namespace Sys2Proof

/-- The Nibble that `fromInt` makes of a digit position of weight `k`, read as an integer. -/
theorem fromInt_digit (n : Int) (k : Nat) :
    ((BitVec.ofNat 4 ((n % 65536).toNat / k)).toNat : Int) = n % 65536 / k % 16 := by
  have nonneg : 0 ≤ n % 65536 := Int.emod_nonneg n (by decide)
  rw [BitVec.toNat_ofNat, Int.natCast_emod, Int.natCast_ediv, Int.toNat_of_nonneg nonneg]
  rfl

theorem Word16.fromInt_d0 (n : Int) : ((Word16.fromInt n).d0.toNat : Int) = n % 65536 % 16 := by
  have digit := fromInt_digit n 1
  rwa [Nat.div_one, Nat.cast_one, Int.ediv_one] at digit

theorem Word16.fromInt_d1 (n : Int) : ((Word16.fromInt n).d1.toNat : Int) = n % 65536 / 16 % 16 :=
  fromInt_digit n 16

theorem Word16.fromInt_d2 (n : Int) : ((Word16.fromInt n).d2.toNat : Int) = n % 65536 / 256 % 16 :=
  fromInt_digit n 256

theorem Word16.fromInt_d3 (n : Int) : ((Word16.fromInt n).d3.toNat : Int) = n % 65536 / 4096 % 16 :=
  fromInt_digit n 4096

/-- The range of `toInt`: four digits of 15 make 65535. -/
theorem Word16.toInt_le (w : Word16) : w.toInt ≤ 65535 := by
  have := w.d0.isLt; have := w.d1.isLt; have := w.d2.isLt; have := w.d3.isLt
  unfold Word16.toInt
  omega

/-- The four base 16 digits of a residue below 65536 add up to it. -/
@[simp] theorem Word16.toInt_fromInt (n : Int) : ((Word16.fromInt n).toInt : Int) = n % 65536 := by
  have h0 := Word16.fromInt_d0 n
  have h1 := Word16.fromInt_d1 n
  have h2 := Word16.fromInt_d2 n
  have h3 := Word16.fromInt_d3 n
  unfold Word16.toInt
  omega

/-- The two words have the same value, which is below 65536, so they are the same word. -/
@[simp] theorem Word16.fromInt_toInt (w : Word16) : Word16.fromInt w.toInt = w := by
  apply Machine.toInt_injective
  have value := Word16.toInt_fromInt w.toInt
  have range := w.toInt_le
  omega

/-- Settles O1: each digit of `fromInt` is one quotient, the digits add up to the residue, and a word is determined by
its value. -/
theorem wordConversionsInverse : Obligations.WordConversionsInverse :=
  ⟨fun w => ⟨rfl, w.toInt_le⟩,
   fun n => ⟨Word16.fromInt_d0 n, Word16.fromInt_d1 n, Word16.fromInt_d2 n, Word16.fromInt_d3 n⟩,
   Word16.fromInt_toInt,
   Word16.toInt_fromInt⟩

end Sys2Proof
end

section
/-! The decoder and the encoder (30_encoding.md R40): a word decodes to a command exactly when its fields are the
command's, so that each of the two undoes the other. -/

namespace Sys2Proof

/-- A check whose failure makes the word Illegal answers a command exactly when it passes. -/
theorem checked_eq_command_iff (p : Prop) [Decidable p] (why : IllegalWord) (i j : Instr) :
    (if p then Decoded.command i else .illegal why) = .command j ↔ p ∧ i = j := by
  by_cases hp : p
  · simp [hp]
  · simp [hp]

/-- R38: a command with no operand is decoded exactly from zero `c` and `n` fields. -/
theorem decodePlain_eq_command_iff (f : Fields) (i j : Instr) :
    decodePlain f i = .command j ↔ f.c = 0 ∧ f.n = 0 ∧ i = j := by
  rw [decodePlain, checked_eq_command_iff, and_assoc]

/-- A Nibble field is the constant whose number it has. -/
theorem nibble_eq_of_toNat {x : Nibble} {k : Nat} (h : x.toNat = k) : x = BitVec.ofNat 4 k := by
  rw [← h, BitVec.ofNat_toNat, BitVec.setWidth_eq]

/-- The fields of a command decode to it: one branch of the decoder for each command. -/
theorem decode_of_fields {w : CmdWord} {i : Instr} (h : fields w = i.fields) : decode w = .command i := by
  unfold decode
  rw [h]
  cases i <;> rfl

/-- A word that decodes to a command has the command's fields: each branch of the decoder that answers a command
fixes the opcode, and its zero checks fix the fields the command does not use. -/
theorem fields_of_decode {w : CmdWord} {i : Instr} (h : decode w = .command i) : fields w = i.fields := by
  unfold decode at h
  generalize fields w = f at h ⊢
  obtain ⟨op, c, n⟩ := f
  dsimp only at h
  split at h
  case h_1 hop =>
    cases h
    rw [nibble_eq_of_toNat hop]
    rfl
  case h_2 hop =>
    obtain ⟨rfl, rfl⟩ := (checked_eq_command_iff ..).mp h
    rw [nibble_eq_of_toNat hop]
    rfl
  case h_3 hop | h_4 hop | h_5 hop | h_6 hop | h_7 hop =>
    obtain ⟨rfl, rfl, rfl⟩ := (decodePlain_eq_command_iff ..).mp h
    rw [nibble_eq_of_toNat hop]
    rfl
  case h_8 => cases h

/-- R40: a word decodes to a command exactly when its fields are the command's. -/
theorem decode_eq_command_iff (w : CmdWord) (i : Instr) : decode w = .command i ↔ fields w = i.fields :=
  ⟨fields_of_decode, decode_of_fields⟩

/-- R35, R37: the fields of a command's word are the command's. -/
@[simp] theorem fields_encode (i : Instr) : fields (encode i) = i.fields := fields_append ..

@[simp] theorem decode_encode (i : Instr) : decode (encode i) = .command i :=
  decode_of_fields (fields_encode i)

theorem encode_of_decode {w : CmdWord} {i : Instr} (h : decode w = .command i) : encode i = w := by
  rw [encode, ← fields_of_decode h, word_fields]

/-- R37: the table of commands, read by fields: which command has the fields `op`, `c`, `n`. -/
theorem fields_eq_iff (op c n : Nibble) (i : Instr) : ⟨op, c, n⟩ = i.fields ↔
    (op = 1 ∧ i = .wrn c n) ∨ (op = 2 ∧ n = 0 ∧ i = .rdn c) ∨
    (op = 3 ∧ c = 0 ∧ n = 0 ∧ i = .add16) ∨ (op = 4 ∧ c = 0 ∧ n = 0 ∧ i = .sub16) ∨
    (op = 5 ∧ c = 0 ∧ n = 0 ∧ i = .stepup) ∨ (op = 6 ∧ c = 0 ∧ n = 0 ∧ i = .stepdn) ∨
    (op = 7 ∧ c = 0 ∧ n = 0 ∧ i = .poll) := by
  cases i with
  | wrn c' n' => simp [Instr.fields, eq_comm (a := c), eq_comm (a := n)]
  | rdn c' => simp [Instr.fields, eq_comm (a := c), and_comm (b := n = 0#4)]
  | add16 | sub16 | stepup | stepdn | poll => simp [Instr.fields]

/-- Settles O2: the decoder is read off the fields of the word, the encoder's words are the fields put together, and
both inverses come from `decode_eq_command_iff`. -/
theorem decodeEncodeAgree : Obligations.DecodeEncodeAgree :=
  ⟨fun op c n i => by rw [decode_eq_command_iff, fields_append, fields_eq_iff],
   fun _ _ => rfl, fun _ => rfl, rfl, rfl, rfl, rfl, rfl,
   decode_encode,
   fun _ _ => encode_of_decode⟩

end Sys2Proof
end

section
/-! One slice of a pass and the whole pass as integers (40_arith.md R45 to R54): the slice's fix and add stages add a
carry into a digit sum without losing any of it, so that the pass adds two words exactly. -/

namespace Sys2Proof.Machine

/-! ## The stages -/

/-- Settles O7: the digit is the sum of the bit vectors, the carry is add4's own test, and `add4_value` adds them up. -/
theorem add4SumAndCarry : Obligations.Add4SumAndCarry := fun x y =>
  ⟨BitVec.toNat_add x y, decide_eq_true_iff, (add4_value x y).symm⟩

@[simp] theorem fixStage_cin (cin : Bool) (p : Nibble) : (fixStage cin p).cin = cin := by
  rw [fixStage_spec]

/-- R48: the carry found is consumed, so CF after a fix stage is the carry of its increment. -/
@[simp] theorem fixStage_cf (cin : Bool) (p : Nibble) : (fixStage cin p).cf = (fixStage cin p).c1 := by
  rw [fixStage_spec]

/-- R48: the increment carries exactly when a carry is added into the digit 15. -/
theorem fixStage_c1_iff (cin : Bool) (p : Nibble) : (fixStage cin p).c1 = true ↔ cin = true ∧ p = 15 := by
  rw [fixStage_spec, Bool.and_eq_true, decide_eq_true_iff]

theorem fixStage_false (p : Nibble) : fixStage false p = { cin := false, x := p, c1 := false, cf := false } := rfl

theorem addStage_cf (cf : Bool) (x q : Nibble) : (addStage cf x q).cf = (cf || (addStage cf x q).c2) := by
  rw [addStage_spec]

theorem addStage_value (cf : Bool) (x q : Nibble) :
    (addStage cf x q).r.toNat + 16 * (addStage cf x q).c2.toNat = x.toNat + q.toNat :=
  add4_value x q

theorem addStage_zero (x : Nibble) : addStage false x 0 = { r := x, c2 := false, cf := false } := by
  revert x; decide

theorem fixedAsRuled_fixStage (cin : Bool) (p : Nibble) : FixedAsRuled cin p (fixStage cin p) := by
  refine ⟨fixStage_cin cin p, ?_, ?_, fixStage_cf cin p, ?_⟩
  · rintro rfl; rfl
  · rintro rfl; exact ⟨rfl, rfl⟩
  · rw [fixStage_cin, fixStage_c1_iff]

theorem addedAsRuled_addStage {f : FixTrace} (hf : f.cf = f.c1) (q : Nibble) :
    AddedAsRuled f q (addStage f.cf f.x q) := by
  have hcf := addStage_cf f.cf f.x q
  refine ⟨rfl, fun carry => ?_, fun noCarry => ?_, ?_⟩
  · rw [hcf, carry, Bool.or_true]
  · rw [hcf, noCarry, Bool.or_false]
  · rw [hcf, hf]

/-! ## One slice -/

/-- R48, R49: slice 1, 2 or 3 of a pass on the digits `p` and `q`, CF being `cin` before it: its two stages. -/
def slice (cin : Bool) (p q : Nibble) : FixTrace × AddTrace :=
  (fixStage cin p, addStage (fixStage cin p).cf (fixStage cin p).x q)

/-- Slices 1 to 3 of a pass are slices on its digits, the carry in being CF after the slice below. -/
theorem runPass_slices (cf : Bool) (p q : Word16) :
    ((runPass cf p q).fix1, (runPass cf p q).add1) = slice (runPass cf p q).add0.cf p.d1 q.d1 ∧
    ((runPass cf p q).fix2, (runPass cf p q).add2) = slice (runPass cf p q).add1.cf p.d2 q.d2 ∧
    ((runPass cf p q).fix3, (runPass cf p q).add3) = slice (runPass cf p q).add2.cf p.d3 q.d3 :=
  ⟨rfl, rfl, rfl⟩

theorem slice_fixed_value (cin : Bool) (p q : Nibble) :
    (slice cin p q).1.x.toNat + 16 * (slice cin p q).1.c1.toNat = p.toNat + cin.toNat :=
  fixStage_value cin p

theorem slice_added_value (cin : Bool) (p q : Nibble) :
    (slice cin p q).2.r.toNat + 16 * (slice cin p q).2.c2.toNat = (slice cin p q).1.x.toNat + q.toNat :=
  addStage_value _ _ q

/-- R53: an increment that carries leaves the digit 0, and 0 plus a digit has no carry. -/
theorem slice_carries_exclusive (cin : Bool) (p q : Nibble) :
    ¬ ((slice cin p q).1.c1 = true ∧ (slice cin p q).2.c2 = true) := by
  rintro ⟨hc1, hc2⟩
  have fixed := slice_fixed_value cin p q
  have added := slice_added_value cin p q
  rw [hc1, Bool.toNat_true] at fixed
  rw [hc2, Bool.toNat_true] at added
  have := p.isLt; have := q.isLt; have := cin.toNat_le
  omega

/-- R49: CF after a slice is the OR of its two carries. -/
theorem slice_cf (cin : Bool) (p q : Nibble) :
    (slice cin p q).2.cf = ((slice cin p q).1.c1 || (slice cin p q).2.c2) :=
  (addStage_cf _ _ q).trans (by rw [fixStage_cf]; rfl)

/-- R53: the OR of two carries that exclude each other is their sum. -/
theorem slice_cf_toNat (cin : Bool) (p q : Nibble) :
    (slice cin p q).2.cf.toNat = (slice cin p q).1.c1.toNat + (slice cin p q).2.c2.toNat := by
  have exclusive := slice_carries_exclusive cin p q
  rw [slice_cf]
  generalize (slice cin p q).1.c1 = c1 at *
  generalize (slice cin p q).2.c2 = c2 at *
  revert c1 c2
  decide

/-- R52: a slice is a full 4-bit adder with carry in: what its two stages compute, added up. -/
theorem slice_value (cin : Bool) (p q : Nibble) :
    p.toNat + q.toNat + (slice cin p q).1.cin.toNat =
      (slice cin p q).2.r.toNat + 16 * (slice cin p q).2.cf.toNat := by
  have found : (slice cin p q).1.cin = cin := fixStage_cin cin p
  have fixed := slice_fixed_value cin p q
  have added := slice_added_value cin p q
  have carry := slice_cf_toNat cin p q
  rw [found]
  omega

/-! ## The pass -/

/-- Settles O8: CLR and ADD0 by definition, and each slice above by the rules of its two stages. -/
theorem passMicroSteps : Obligations.PassMicroSteps := fun _ p q =>
  ⟨rfl, rfl, addStage_cf false p.d0 q.d0,
   fixedAsRuled_fixStage _ p.d1, addedAsRuled_addStage (fixStage_cf _ p.d1) q.d1,
   fixedAsRuled_fixStage _ p.d2, addedAsRuled_addStage (fixStage_cf _ p.d2) q.d2,
   fixedAsRuled_fixStage _ p.d3, addedAsRuled_addStage (fixStage_cf _ p.d3) q.d3⟩

/-- Digit 0 has no carry in: ADD0 starts from the CF that CLR left, so CF after it is its carry. -/
theorem addStage_false_value (p q : Nibble) :
    p.toNat + q.toNat = (addStage false p q).r.toNat + 16 * (addStage false p q).cf.toNat := by
  rw [addStage_cf, Bool.false_or, addStage_value]

/-- Settles O9: digit 0 is an add stage after CLR, each other digit a slice. -/
theorem digitLaw : Obligations.DigitLaw := fun cf p q =>
  ⟨addStage_false_value p.d0 q.d0,
   slice_value (runPass cf p q).add0.cf p.d1 q.d1,
   slice_value (runPass cf p q).add1.cf p.d2 q.d2,
   slice_value (runPass cf p q).add2.cf p.d3 q.d3,
   fixStage_cin _ p.d1, fixStage_cin _ p.d2, fixStage_cin _ p.d3⟩

/-- Settles O10: each of the three is a `slice`, whose carries exclude each other. -/
theorem sliceCarriesExclusive : Obligations.SliceCarriesExclusive := by
  intro cf p q t s hs
  have isSlice : ∃ cin x y, s = slice cin x y := by
    obtain ⟨slice1, slice2, slice3⟩ := runPass_slices cf p q
    simp only [List.mem_cons, List.not_mem_nil, or_false] at hs
    rcases hs with rfl | rfl | rfl
    · exact ⟨_, _, _, slice1⟩
    · exact ⟨_, _, _, slice2⟩
    · exact ⟨_, _, _, slice3⟩
  obtain ⟨cin, x, y, rfl⟩ := isSlice
  refine ⟨slice_carries_exclusive cin x y, slice_cf_toNat cin x y, ?_⟩
  rw [slice_cf]
  exact congrArg (· || _) (fixStage_cf cin x).symm

/-- R54: a pass loses nothing of the sum: the four digit laws, each carry out being the next carry in. -/
theorem runPass_value (cf : Bool) (a b : Word16) :
    (runPass cf a b).result.toInt + 65536 * (runPass cf a b).cfOut.toNat = a.toInt + b.toInt := by
  obtain ⟨digit0, digit1, digit2, digit3, carry1, carry2, carry3⟩ := digitLaw cf a b
  rw [carry1] at digit1
  rw [carry2] at digit2
  rw [carry3] at digit3
  simp only [Word16.toInt, PassTrace.result, PassTrace.cfOut]
  omega

theorem add16_toInt (a b : Word16) : (add16 a b).toInt = (a.toInt + b.toInt) % 65536 := by
  have value := runPass_value false a b
  have range := (add16 a b).toInt_le
  rw [← add16] at value
  omega

/-- R50: CF after a pass is the carry out of digit 3, whatever CF it found. -/
theorem runPass_cfOut (cf : Bool) (a b : Word16) :
    (runPass cf a b).cfOut = decide (65536 ≤ a.toInt + b.toInt) := by
  have value := runPass_value cf a b
  have range := (runPass cf a b).result.toInt_le
  rcases h : (runPass cf a b).cfOut <;> simp only [h, Bool.toNat_false, Bool.toNat_true] at value
  · exact (decide_eq_false (by omega)).symm
  · exact (decide_eq_true (by omega)).symm

theorem runPass_cfOut_toNat (cf : Bool) (a b : Word16) :
    (runPass cf a b).cfOut.toNat = (a.toInt + b.toInt) / 65536 := by
  have value := runPass_value cf a b
  have range := (runPass cf a b).result.toInt_le
  omega

/-- R7: a word is `fromInt` of every integer in its residue class. -/
theorem eq_fromInt_of_toInt {w : Word16} {n : Int} (h : (w.toInt : Int) = n % 65536) : w = Word16.fromInt n := by
  apply toInt_injective
  have value := Word16.toInt_fromInt n
  omega

theorem fromInt_zero_toInt : (Word16.fromInt 0).toInt = 0 := rfl

theorem add16_comm (a b : Word16) : add16 a b = add16 b a :=
  toInt_injective (by rw [add16_toInt, add16_toInt, Nat.add_comm])

theorem add16_assoc (a b c : Word16) : add16 (add16 a b) c = add16 a (add16 b c) :=
  toInt_injective (by simp only [add16_toInt, Nat.mod_add_mod, Nat.add_mod_mod, Nat.add_assoc])

theorem add16_fromInt_zero (a : Word16) : add16 a (Word16.fromInt 0) = a := by
  apply toInt_injective
  have range := a.toInt_le
  rw [add16_toInt, fromInt_zero_toInt]
  omega

/-- Settles O11: `runPass_value` gives sum and carry, and the laws of the result are those of addition modulo 65536. The
traces of 0x0FFF + 1 and 1 + 0x0FFF differ (the vectors V2 and V16). -/
theorem sumLaw : Obligations.SumLaw :=
  ⟨fun cf a b => ⟨add16_toInt a b, rfl, runPass_cfOut_toNat cf a b⟩,
   add16_comm,
   ⟨Word16.fromInt 0x0FFF, Word16.fromInt 1, by decide⟩,
   add16_assoc,
   fun a => ⟨add16_fromInt_zero a, (add16_comm _ a).trans (add16_fromInt_zero a)⟩⟩

end Sys2Proof.Machine
end

section
/-! Negation and subtraction (40_arith.md R57, R58, R60), from the digits' inversion and the sum. -/

namespace Sys2Proof.Machine

theorem invDigit_toNat (d : Nibble) : (invDigit d).toNat = 15 - d.toNat := by
  revert d; decide

theorem invDigit_eq_xor (d : Nibble) : invDigit d = d ^^^ 15 := by
  revert d; decide

/-- R57: inverting every digit takes the value from 65535. -/
theorem inv16_toInt (w : Word16) : (inv16 w).toInt = 65535 - w.toInt := by
  have := w.d0.isLt; have := w.d1.isLt; have := w.d2.isLt; have := w.d3.isLt
  simp only [Word16.toInt, inv16, invDigit_toNat]
  omega

theorem one_toInt : Word16.one.toInt = 1 := rfl

theorem neg16_toInt (w : Word16) : (neg16 w).toInt = (65536 - w.toInt) % 65536 := by
  have range := w.toInt_le
  rw [neg16, add16_toInt, inv16_toInt, one_toInt]
  omega

/-- Settles O12: the digits one by one, and the two values by `inv16_toInt` and `neg16_toInt`. -/
theorem negationLaw : Obligations.NegationLaw := fun w =>
  ⟨invDigit_toNat w.d0, invDigit_toNat w.d1, invDigit_toNat w.d2, invDigit_toNat w.d3,
   by simp only [inv16, invDigit_eq_xor],
   rfl, rfl, inv16_toInt w, neg16_toInt w⟩

theorem sub16_toInt (a b : Word16) : ((sub16 a b).toInt : Int) = ((a.toInt : Int) - b.toInt) % 65536 := by
  have range := b.toInt_le
  rw [sub16, add16_toInt, neg16_toInt]
  omega

/-- Settles O13: adding the negation is subtracting modulo 65536. -/
theorem differenceLaw : Obligations.DifferenceLaw := sub16_toInt

end Sys2Proof.Machine
end

section
/-! The commands ADD16 and SUB16 (40_arith.md R56, R59, R62): the next state of each, written out once. -/

namespace Sys2Proof.Machine

/-! ## Their words -/

/-- R38: with an opcode of 3 or more, a word whose `c` and `n` fields are not both 0 is Illegal. -/
theorem decode_illegal_of_operand {op c n : Nibble} (hop : 3 ≤ op.toNat) (hcn : ¬ (c = 0 ∧ n = 0)) :
    ∃ why, decode (op ++ c ++ n : CmdWord) = .illegal why := by
  cases hd : decode (op ++ c ++ n : CmdWord) with
  | illegal why => exact ⟨why, rfl⟩
  | command i =>
    have row := fields_of_decode hd
    rw [fields_append, fields_eq_iff] at row
    rcases row with ⟨rfl, -⟩ | ⟨rfl, -⟩ | ⟨-, hc, hn, -⟩ | ⟨-, hc, hn, -⟩ | ⟨-, hc, hn, -⟩ | ⟨-, hc, hn, -⟩ |
      ⟨-, hc, hn, -⟩
    · exact absurd hop (by decide)
    · exact absurd hop (by decide)
    all_goals exact absurd ⟨hc, hn⟩ hcn

/-- R38: the encoding of a command with opcode 3 or more is its one word. -/
theorem oneWordOnly_encode (i : Instr) {op : Nibble} (hop : 3 ≤ op.toNat) : OneWordOnly i op (encode i) :=
  ⟨rfl, decode_encode i, fun _ _ hcn => decode_illegal_of_operand hop hcn⟩

/-! ## What they compute -/

theorem add16_eq_fromInt (a b : Word16) : add16 a b = Word16.fromInt (a.toInt + b.toInt) :=
  eq_fromInt_of_toInt (by rw [add16_toInt]; omega)

theorem sub16_eq_fromInt (a b : Word16) : sub16 a b = Word16.fromInt ((a.toInt : Int) - b.toInt) :=
  eq_fromInt_of_toInt (sub16_toInt a b)

/-- R59: the second pass of SUB16 carries exactly when there is no borrow and B is not 0; for B = 0 the negation is 0 and
nothing carries. -/
theorem runPass_neg16_cfOut (cf : Bool) (a b : Word16) :
    (runPass cf a (neg16 b)).cfOut = decide (b.toInt ≤ a.toInt ∧ b.toInt ≠ 0) := by
  have rangeA := a.toInt_le
  have rangeB := b.toInt_le
  rw [runPass_cfOut, neg16_toInt, decide_eq_decide]
  omega

/-- R56: the next state of ADD16. -/
theorem exec_add16 (s : State) : exec .add16 s = .next ((s.setBlock { s.block with
      a := Word16.fromInt (s.block.a.toInt + s.block.b.toInt)
      cf := decide (65536 ≤ s.block.a.toInt + s.block.b.toInt) }).setTrace [runPass false s.block.a s.block.b]) := by
  rw [← add16_eq_fromInt, ← runPass_cfOut false]
  rfl

/-- R59: the next state of SUB16. -/
theorem exec_sub16 (s : State) : exec .sub16 s = .next ((s.setBlock { s.block with
      a := Word16.fromInt ((s.block.a.toInt : Int) - s.block.b.toInt)
      cf := decide (s.block.b.toInt ≤ s.block.a.toInt ∧ s.block.b.toInt ≠ 0) }).setTrace
        [runPass false (inv16 s.block.b) Word16.one, runPass false s.block.a (neg16 s.block.b)]) := by
  rw [← sub16_eq_fromInt, ← runPass_neg16_cfOut false]
  rfl

/-- R98: a digit of A is read by its own slice only, so writing the slices below it first changes nothing. -/
theorem passInPlace_eq (cf : Bool) (a q : Word16) :
    passInPlace cf a q = ((runPass cf a q).result, runPass cf a q) := rfl

/-- R56: a pass that adds 0 leaves CF at 0 through all its micro-steps. -/
theorem runPass_zero_cfs (cf : Bool) (a : Word16) :
    (runPass cf a (Word16.fromInt 0)).cfs = List.replicate 8 false := by
  have zero : Word16.fromInt 0 = ⟨0, 0, 0, 0⟩ := rfl
  simp only [zero, PassTrace.cfs, runPass, cfClear, addStage_zero, fixStage_false]
  rfl

/-- Settles O16: the next state is `exec_add16`; adding 0 carries nowhere by `runPass_zero_cfs`. -/
theorem add16AddsBIntoA : Obligations.Add16AddsBIntoA :=
  ⟨oneWordOnly_encode .add16 (by decide),
   fun s => ⟨_, exec_add16 s, rfl, rfl, rfl⟩,
   passInPlace_eq,
   fun a _ hv => List.eq_of_mem_replicate (runPass_zero_cfs false a ▸ hv),
   by decide⟩

/-- Settles O17: the next state is `exec_sub16`, whose A and CF are those of the second pass; the corner cases are
those of closed words. -/
theorem sub16SubtractsBFromA : Obligations.Sub16SubtractsBFromA :=
  ⟨oneWordOnly_encode .sub16 (by decide),
   fun s => ⟨_, exec_sub16 s, rfl,
     (sub16_eq_fromInt s.block.a s.block.b).symm, (runPass_neg16_cfOut false s.block.a s.block.b).symm, rfl, rfl⟩,
   by decide, by decide, by decide, by decide, by decide, by decide⟩

/-- Settles O19: the next states `exec_add16` and `exec_sub16` differ from `s` in A, CF and the trace only. -/
theorem arithmeticIsTotal : Obligations.ArithmeticIsTotal := by
  rintro s i (rfl | rfl)
  · exact ⟨_, exec_add16 s, rfl, rfl, rfl⟩
  · exact ⟨_, exec_sub16 s, rfl, rfl, rfl⟩

end Sys2Proof.Machine
end

section
/-! The three nested countdowns of the debouncer as one counter (41_debounce.md R69). `rem` reads them as a number of
mixed radix: a full inner countdown is worth one of the countdown around it, which is what the reload of R67 pays for. -/

namespace Sys2Proof.Machine

/-- R5, R69: the parameters are admitted exactly when DEB_START is 1 or more. -/
theorem params_wf_iff (P : Params) : P.wf = true ↔ 1 ≤ P.debStart.toNat := by
  have nonzero : ∀ k : Nibble, (k != 0) = true ↔ 1 ≤ k.toNat := by decide
  exact nonzero P.debStart

theorem sub_one_toNat {k : Nibble} (h : 1 ≤ k.toNat) : (k - 1).toNat = k.toNat - 1 :=
  BitVec.toNat_sub_of_le h

/-- One taken from a count of weight `d` pays for `d` of weight 1. -/
theorem sub_one_mul_add_self {k : Nat} (d : Nat) (h : 1 ≤ k) : (k - 1) * d + d = k * d := by
  rw [← Nat.succ_mul, Nat.succ_eq_add_one, Nat.sub_add_cancel h]

/-! ## The range of the countdowns -/

/-- R69: each countdown is in 1..DEB_START. -/
abbrev Block.CountsInRange (P : Params) (b : Block) : Prop :=
  (1 ≤ b.k0.toNat ∧ b.k0.toNat ≤ P.debStart.toNat) ∧ (1 ≤ b.k1.toNat ∧ b.k1.toNat ≤ P.debStart.toNat) ∧
    (1 ≤ b.k2.toNat ∧ b.k2.toNat ≤ P.debStart.toNat)

theorem inv_iff (P : Params) (b : Block) :
    b.Inv P ↔ (b.mode = .settling → b.bcap ≠ Config.noButton ∧ b.CountsInRange P) := Iff.rfl

/-- R69: the invariant is of SETTLING only. -/
theorem inv_of_ready (P : Params) {b : Block} (h : b.mode = .ready) : b.Inv P := by
  intro settling
  rw [h] at settling
  cases settling

theorem loadCountdowns_countsInRange {P : Params} (b : Block) (hP : 1 ≤ P.debStart.toNat) :
    (b.loadCountdowns P).CountsInRange P :=
  ⟨⟨hP, le_refl _⟩, ⟨hP, le_refl _⟩, ⟨hP, le_refl _⟩⟩

/-! ## The counter -/

theorem rem_setK (P : Params) (b : Block) (x y z : Nibble) :
    (b.setK x y z).rem P =
      (z.toNat - 1) * P.debStart.toNat ^ 2 + (y.toNat - 1) * P.debStart.toNat + x.toNat := rfl

theorem rem_of_ones (P : Params) {b : Block} (h0 : b.k0 = 1) (h1 : b.k1 = 1) (h2 : b.k2 = 1) : b.rem P = 1 := by
  simp [Block.rem, h0, h1, h2]

theorem one_le_rem {P : Params} {b : Block} (h0 : 1 ≤ b.k0.toNat) : 1 ≤ b.rem P :=
  h0.trans (Nat.le_add_left _ _)

/-- The two inner countdowns, full, are worth one of the outermost. -/
theorem full_inner_value {d : Nat} (h : 1 ≤ d) : (d - 1) * d + d = d ^ 2 := by
  rw [sub_one_mul_add_self d h, Nat.pow_two]

/-- R69: the load sets the counter to SETTLE_LEN. -/
theorem rem_loadCountdowns {P : Params} (b : Block) (hP : 1 ≤ P.debStart.toNat) :
    (b.loadCountdowns P).rem P = P.settleLen := by
  rw [Block.loadCountdowns, rem_setK, Nat.add_assoc, full_inner_value hP, sub_one_mul_add_self _ hP,
    ← Nat.pow_succ', Params.settleLen]

/-- No countdown exceeds its loaded value, so the counter does not exceed its own. -/
theorem rem_le_settleLen {P : Params} {b : Block} (hP : 1 ≤ P.debStart.toNat) (hb : b.CountsInRange P) :
    b.rem P ≤ P.settleLen := by
  obtain ⟨⟨-, le0⟩, ⟨-, le1⟩, ⟨-, le2⟩⟩ := hb
  rw [← rem_loadCountdowns b hP, Block.loadCountdowns, rem_setK, Block.rem]
  gcongr

/-! ## The transitions -/

@[simp] theorem complete_mode (b : Block) : b.complete.mode = .ready := rfl
@[simp] theorem complete_dout (b : Block) : b.complete.dout = b.bcap := rfl

/-- R67, R69: a released sample lowers the counter by 1 and keeps the countdowns in range, or all three are at 1 and it
completes. -/
theorem countDown_lowers_or_completes {P : Params} {b : Block} (hP : 1 ≤ P.debStart.toNat)
    (hb : b.CountsInRange P) :
    (∃ x y z, b.countDown P = b.setK x y z ∧ (b.setK x y z).CountsInRange P ∧
      (b.setK x y z).rem P + 1 = b.rem P) ∨
    (b.k0 = 1 ∧ b.k1 = 1 ∧ b.k2 = 1 ∧ b.countDown P = (b.setK P.debStart P.debStart 0).complete) := by
  obtain ⟨⟨ge0, le0⟩, ⟨ge1, le1⟩, ⟨ge2, le2⟩⟩ := hb
  have full : 1 ≤ P.debStart.toNat ∧ P.debStart.toNat ≤ P.debStart.toNat := ⟨hP, le_refl _⟩
  have lowered : ∀ {k : Nibble}, 1 < k.toNat → k.toNat ≤ P.debStart.toNat →
      1 ≤ (k - 1).toNat ∧ (k - 1).toNat ≤ P.debStart.toNat := by
    intro k gt le
    rw [sub_one_toNat gt.le]
    omega
  rcases countDown_cases P b ge0 ge1 ge2 with ⟨gt0, h⟩ | ⟨e0, gt1, h⟩ | ⟨e0, e1, gt2, h⟩ | done
  · refine .inl ⟨_, _, _, h, ⟨lowered gt0 le0, ⟨ge1, le1⟩, ⟨ge2, le2⟩⟩, ?_⟩
    rw [rem_setK, sub_one_toNat ge0, Block.rem]
    omega
  · refine .inl ⟨_, _, _, h, ⟨full, lowered gt1 le1, ⟨ge2, le2⟩⟩, ?_⟩
    rw [rem_setK, sub_one_toNat ge1, Nat.add_assoc (_ * _ ^ 2),
      sub_one_mul_add_self _ (Nat.le_sub_one_of_lt gt1), Block.rem, e0]
    rfl
  · refine .inl ⟨_, _, _, h, ⟨full, full, lowered gt2 le2⟩, ?_⟩
    rw [rem_setK, sub_one_toNat ge2, Nat.add_assoc (_ * _ ^ 2), full_inner_value hP,
      sub_one_mul_add_self _ (Nat.le_sub_one_of_lt gt2), Block.rem, e0, e1]
    simp
  · exact .inr done

/-- R69: the counter is at 1 exactly when the three countdowns are: from any other value it could still be lowered, and
it never reaches 0. -/
theorem rem_eq_one_iff {P : Params} {b : Block} (hP : 1 ≤ P.debStart.toNat) (hb : b.CountsInRange P) :
    b.rem P = 1 ↔ b.k0 = 1 ∧ b.k1 = 1 ∧ b.k2 = 1 := by
  refine ⟨fun one => ?_, fun ⟨h0, h1, h2⟩ => rem_of_ones P h0 h1 h2⟩
  rcases countDown_lowers_or_completes hP hb with ⟨x, y, z, -, range, lowers⟩ | ⟨h0, h1, h2, -⟩
  · have := one_le_rem (P := P) range.1.1
    omega
  · exact ⟨h0, h1, h2⟩

/-- R67: above 1 a released sample sets the countdowns only, and lowers the counter by 1. -/
theorem settle_released_of_one_lt {P : Params} {b : Block} (hP : 1 ≤ P.debStart.toNat) (hb : b.CountsInRange P)
    (h : 1 < b.rem P) :
    (b.settle P Config.noButton).mode = b.mode ∧ (b.settle P Config.noButton).rem P = b.rem P - 1 := by
  rw [settle_released]
  rcases countDown_lowers_or_completes hP hb with ⟨x, y, z, eq, -, lowers⟩ | ⟨h0, h1, h2, -⟩
  · rw [eq]
    exact ⟨rfl, by omega⟩
  · exact absurd (rem_of_ones P h0 h1 h2) h.ne'

/-- R68: at 1 a released sample completes. -/
theorem settle_released_of_rem_eq_one {P : Params} {b : Block} (hP : 1 ≤ P.debStart.toNat)
    (hb : b.CountsInRange P) (h : b.rem P = 1) :
    b.settle P Config.noButton = (b.setK P.debStart P.debStart 0).complete := by
  rw [settle_released]
  rcases countDown_lowers_or_completes hP hb with ⟨x, y, z, -, range, lowers⟩ | ⟨-, -, -, eq⟩
  · have := one_le_rem (P := P) range.1.1
    omega
  · exact eq

/-- R69: a settle step in SETTLING keeps the invariant. -/
theorem settle_keeps_inv {P : Params} {b : Block} (hP : 1 ≤ P.debStart.toNat) (hm : b.mode = .settling)
    (hb : b.Inv P) (v : Nibble) : (b.settle P v).Inv P := by
  obtain ⟨captured, range⟩ := (inv_iff P b).mp hb hm
  by_cases hv : v = Config.noButton
  · rw [hv, settle_released]
    rcases countDown_lowers_or_completes hP range with ⟨x, y, z, eq, range', -⟩ | ⟨-, -, -, eq⟩
    · rw [eq]
      exact (inv_iff P _).mpr fun _ => ⟨captured, range'⟩
    · rw [eq]
      exact inv_of_ready P (complete_mode _)
  · rw [settle_unstable P b hv]
    exact (inv_iff P _).mpr fun _ => ⟨captured, loadCountdowns_countsInRange b hP⟩

/-- R64, R65, R69: the command step of POLL from READY establishes the invariant. -/
theorem poll_inv {P : Params} {b : Block} (hP : 1 ≤ P.debStart.toNat) (hm : b.mode = .ready) (v : Nibble) :
    (b.poll P v).Inv P := by
  by_cases hv : v = Config.noButton
  · rw [hv, poll_released]
    exact inv_of_ready P hm
  · rw [poll_press P b hv]
    exact (inv_iff P _).mpr fun _ => ⟨hv, loadCountdowns_countsInRange (b.setBCAP v) hP⟩

theorem rem_poll_press {P : Params} (b : Block) (hP : 1 ≤ P.debStart.toNat) {v : Nibble}
    (hv : v ≠ Config.noButton) : (b.poll P v).rem P = P.settleLen := by
  rw [poll_press P b hv]
  exact rem_loadCountdowns (b.setBCAP v) hP

/-- Settles O32: the load, the entry and each kind of settle step by the lemma about it; the decrement is
`countDown_lowers_or_completes`. -/
theorem threeCountdownsAreOneCounter : Obligations.ThreeCountdownsAreOneCounter := by
  intro P b wf
  have hP := (params_wf_iff P).mp wf
  refine ⟨rem_loadCountdowns b hP, fun v hm => ⟨poll_inv hP hm v, rem_poll_press b hP⟩, fun hm inv => ?_⟩
  obtain ⟨-, range⟩ := (inv_iff P b).mp inv hm
  refine ⟨⟨one_le_rem range.1.1, rem_le_settleLen hP range⟩, rem_eq_one_iff hP range, settle_keeps_inv hP hm inv,
    fun v hv => ?_, fun above => ?_, fun one => ?_⟩
  · rw [settle_unstable P b hv]
    exact ⟨hm, rem_loadCountdowns b hP⟩
  · rw [← hm]
    exact settle_released_of_one_lt hP range above
  · rw [← noButton_eq, settle_released_of_rem_eq_one hP range one]
    exact ⟨complete_mode _, complete_dout _⟩

end Sys2Proof.Machine
end

section
/-! The step adjustments STEPUP and STEPDN (42_step_adjust.md R75 to R77): both add a digit to B[0], 1 or 15, so doing
several of them adds the sum of their digits modulo 16. -/

namespace Sys2Proof.Machine

/-- The state with the digit `d` added to B[0] modulo 16. -/
def State.addLowDigit (s : State) (d : Nibble) : State :=
  { s with block := { s.block with b := { s.block.b with d0 := s.block.b.d0 + d } } }

theorem addLowDigit_zero (s : State) : s.addLowDigit 0#4 = s := by
  unfold State.addLowDigit
  rw [BitVec.add_zero]

theorem addLowDigit_addLowDigit (s : State) (d e : Nibble) :
    (s.addLowDigit d).addLowDigit e = s.addLowDigit (d + e) := by
  unfold State.addLowDigit
  rw [← BitVec.add_assoc]

/-! ## What they do -/

/-- R75: the next state of STEPUP. -/
theorem exec_stepup (s : State) : exec .stepup s = .next (s.addLowDigit 1) := rfl

/-- R76: the next state of STEPDN. -/
theorem exec_stepdn (s : State) : exec .stepdn s = .next (s.addLowDigit 15) := rfl

/-- Settles O21: the digit `exec_stepup` writes is a sum of bit vectors. -/
theorem stepupIncrementsLowDigit : Obligations.StepupIncrementsLowDigit :=
  ⟨oneWordOnly_encode .stepup (by decide), fun s => ⟨_, BitVec.toNat_add s.block.b.d0 1, exec_stepup s⟩⟩

/-- R76: adding 15 is subtracting 1 modulo 16. -/
theorem add_fifteen_toNat (d : Nibble) : ((d + 15).toNat : Int) = ((d.toNat : Int) - 1) % 16 := by
  have sum : (d + 15).toNat = (d.toNat + 15) % 16 := BitVec.toNat_add d 15
  omega

/-- Settles O22: the digit `exec_stepdn` writes is add4's, which is one less by `add_fifteen_toNat`. -/
theorem stepdnDecrementsLowDigit : Obligations.StepdnDecrementsLowDigit :=
  ⟨oneWordOnly_encode .stepdn (by decide), fun s => ⟨_, add_fifteen_toNat s.block.b.d0, rfl, exec_stepdn s⟩⟩

/-! ## Several of them -/

theorem execList_nil (s : State) : execList [] s = .next s := rfl

/-- A list of commands whose first completes goes on with the rest. -/
theorem execList_cons {i : Instr} {s t : State} (h : exec i s = .next t) (is : List Instr) :
    execList (i :: is) s = execList is t := by
  simp only [execList, h]

/-- Two commands that add digits to B[0] which cancel give the state back. -/
theorem execList_pair_of_addLowDigit {i j : Instr} {d e : Nibble} (hi : ∀ s, exec i s = .next (s.addLowDigit d))
    (hj : ∀ s, exec j s = .next (s.addLowDigit e)) (cancel : d + e = 0#4) (s : State) :
    execList [i, j] s = .next s := by
  rw [execList_cons (hi s), execList_cons (hj _), execList_nil, addLowDigit_addLowDigit, cancel, addLowDigit_zero]

/-- A command that adds a digit to B[0], done `n` times, adds `n` times the digit. -/
theorem execList_replicate_of_addLowDigit {i : Instr} {d : Nibble} (hi : ∀ s, exec i s = .next (s.addLowDigit d))
    (n : Nat) (s : State) : execList (List.replicate n i) s = .next (s.addLowDigit (BitVec.ofNat 4 n * d)) := by
  induction n generalizing s with
  | zero => rw [List.replicate_zero, execList_nil, BitVec.zero_mul, addLowDigit_zero]
  | succ n ih =>
    have total : d + BitVec.ofNat 4 n * d = BitVec.ofNat 4 (n + 1) * d := by
      rw [BitVec.ofNat_add, BitVec.add_mul, BitVec.one_mul, BitVec.add_comm]
    rw [List.replicate_succ, execList_cons (hi s), ih, addLowDigit_addLowDigit, total]

/-- Sixteen times any digit is 0 modulo 16. -/
theorem execList_sixteen_of_addLowDigit {i : Instr} {d : Nibble} (hi : ∀ s, exec i s = .next (s.addLowDigit d))
    (s : State) : execList (List.replicate 16 i) s = .next s := by
  have sixteen : BitVec.ofNat 4 16 * d = 0#4 := BitVec.zero_mul
  rw [execList_replicate_of_addLowDigit hi, sixteen, addLowDigit_zero]

/-- Settles O23: 1 and 15 cancel, sixteen of either digit cancel, and the wraps are 15 + 1 and 0 + 15. -/
theorem stepRoundTrip : Obligations.StepRoundTrip := by
  intro s
  refine ⟨execList_pair_of_addLowDigit exec_stepup exec_stepdn rfl s,
    execList_pair_of_addLowDigit exec_stepdn exec_stepup rfl s,
    execList_sixteen_of_addLowDigit exec_stepup s,
    execList_sixteen_of_addLowDigit exec_stepdn s,
    fun fifteen => ?_, fun zero => ?_⟩
  · rw [exec_stepup, State.addLowDigit, fifteen]
    rfl
  · rw [exec_stepdn, State.addLowDigit, zero]
    rfl

end Sys2Proof.Machine
end

section
/-! One step of the machine (30_encoding.md R44, 60_exceptions.md R83 to R86): what it answers in each case, the kinds of
step there are, and the invariant every step keeps. -/

namespace Sys2Proof.Machine

/-! ## The next state, case by case -/

theorem raiseFault_eq_haltedWith (f : Fault) (s : State) : raiseFault f s = haltedWith f s := rfl

theorem accept_command {w : CmdWord} {i : Instr} (hd : decode w = .command i) (s : State) : accept w s = exec i s := by
  rw [accept, hd]

theorem accept_illegal {w : CmdWord} {why : IllegalWord} (hd : decode w = .illegal why) (s : State) :
    accept w s = .next (raiseFault (.illegalCommand w) s) := by
  rw [accept, hd]

/-- R86: a step with RESET asserted. -/
theorem step_reset (s : State) (hr : resetNow s.resets = true) :
    step s = .next (takeReset (s.setResets s.resets.tail)) := if_pos hr

/-- The state an accepted word acts on: the word taken, the RESET schedule one step nearer (entry 4). -/
def State.taking (s : State) (rest : List CmdWord) : State := (s.setResets (tickResets s.resets)).setProgram rest

/-- With no RESET to come, taking a word changes the words to come only. -/
theorem State.taking_of_no_reset (s : State) (rest : List CmdWord) (h : s.resets = []) :
    s.taking rest = s.setProgram rest := by
  rw [State.taking, setResets_tick s h]

theorem step_command (s : State) {w : CmdWord} {rest : List CmdWord} {i : Instr} (hm : s.block.mode = .ready)
    (hr : resetNow s.resets = false) (hp : s.program = w :: rest) (hd : decode w = .command i) :
    step s = exec i (s.taking rest) := by
  rw [step_accepts s hm hr hp, accept_command hd]
  rfl

theorem step_illegal (s : State) {w : CmdWord} {rest : List CmdWord} {why : IllegalWord} (hm : s.block.mode = .ready)
    (hr : resetNow s.resets = false) (hp : s.program = w :: rest) (hd : decode w = .illegal why) :
    step s = .next (raiseFault (.illegalCommand w) (s.taking rest)) := by
  rw [step_accepts s hm hr hp, accept_illegal hd]
  rfl

/-- Settles O37: `step_command` and `step_illegal`; in SETTLING and HALTED the step is that of the mode, which takes no
word. -/
theorem stepRunsDecodedCommand : Obligations.StepRunsDecodedCommand := by
  intro s hr
  refine ⟨fun w rest i hm hp hd => step_command s hm hr hp hd,
    fun w rest why hm hp hd => step_illegal s hm hr hp hd, ?_⟩
  rintro (hm | hm)
  · exact ⟨_, step_settling s hm hr, rfl⟩
  · exact ⟨_, step_halted s hm hr, rfl⟩

theorem exec_next (i : Instr) (s : State) : ∃ t, exec i s = .next t := by
  obtain ⟨t, h, -⟩ := exec_cases i s
  exact ⟨t, h⟩

theorem accept_next (w : CmdWord) (s : State) : ∃ t, accept w s = .next t := by
  cases hd : decode w with
  | command i => rw [accept_command hd]; exact exec_next i s
  | illegal why => exact ⟨_, accept_illegal hd s⟩

theorem step_next (s : State) : ∃ t, step s = .next t := by
  cases hr : resetNow s.resets with
  | true => exact ⟨_, step_reset s hr⟩
  | false =>
    cases hm : s.block.mode with
    | settling => exact ⟨_, step_settling s hm hr⟩
    | halted => exact ⟨_, step_halted s hm hr⟩
    | ready =>
      cases hp : s.program with
      | nil => exact ⟨_, step_idle s hm hr hp⟩
      | cons w rest => rw [step_accepts s hm hr hp]; exact accept_next w _

/-- Settles O50: a step is a RESET, a step of the mode or the acceptance of a word, and each of them has a next state. -/
theorem everyStepHasNextState : Obligations.EveryStepHasNextState := ⟨step_next, exec_next⟩

/-! ## What a step can do -/

theorem encode_injective : Function.Injective encode := by
  intro i j h
  have commands : Decoded.command i = .command j := by rw [← decode_encode i, h, decode_encode]
  exact Decoded.command.inj commands

/-- R24: an address names no cell exactly when it is 8 to 15. -/
theorem cellAt_eq_none_iff (c : CellAddr) : cellAt c = none ↔ 8 ≤ c.toNat := by
  rw [← Option.isNone_iff_eq_none, ← Option.not_isSome, cellAt_isSome]
  simp

/-- R44: an accepted word is the word of a command, which is performed, or is Illegal. -/
theorem accept_kind {w : CmdWord} {s t : State} (h : accept w s = .next t) :
    (∃ i, w = encode i ∧ exec i s = .next t) ∨
    ∃ why, decode w = .illegal why ∧ t = raiseFault (.illegalCommand w) s := by
  cases hd : decode w with
  | command i => exact .inl ⟨i, (encode_of_decode hd).symm, accept_command hd s ▸ h⟩
  | illegal why =>
    rw [accept_illegal hd] at h
    cases h
    exact .inr ⟨why, rfl, rfl⟩

/-- R82: why a fault is raised, with its word: the word is Illegal, or it is a WRN or RDN of an unimplemented cell. -/
inductive FaultCause : Fault → Prop where
  | illegal {w : CmdWord} {why : IllegalWord} (hd : decode w = .illegal why) : FaultCause (.illegalCommand w)
  | cell {w : CmdWord} {c : CellAddr} (hc : 8 ≤ c.toNat)
      (hd : (∃ n, decode w = .command (.wrn c n)) ∨ decode w = .command (.rdn c)) : FaultCause (.illegalCell w)

/-- What accepting a word can do to MODE and the record: it leaves both, or it is a POLL that saw a press, or it faults. -/
theorem accept_cases {w : CmdWord} {s t : State} (h : accept w s = .next t) :
    (t.block.mode = s.block.mode ∧ t.record.fault = s.record.fault) ∨
    (w = encode .poll ∧ s.raw.sample ≠ Config.noButton ∧ t.record = s.record ∧
      t.block = s.block.poll Config.params s.raw.sample) ∨
    ∃ f, FaultCause f ∧ f.word = w ∧ t = raiseFault f s := by
  rcases accept_kind h with ⟨i, rfl, hexec⟩ | ⟨why, hd, rfl⟩
  · obtain ⟨t', h', -, -, -, completes | ⟨rfl, press, rfl⟩ | ⟨rfl, c, hc, unimplemented⟩⟩ := exec_cases i s <;>
      cases hexec.symm.trans h'
    · exact .inl completes
    · exact .inr (.inl ⟨rfl, press, rfl, (poll_press _ _ press).symm⟩)
    · refine .inr (.inr ⟨_, .cell ((cellAt_eq_none_iff c).mp hc) ?_, rfl, rfl⟩)
      rcases unimplemented with rfl | ⟨n, rfl⟩
      · exact .inr (decode_encode _)
      · exact .inl ⟨n, decode_encode _⟩
  · exact .inr (.inr ⟨_, .illegal hd, rfl, rfl⟩)

/-- The kinds of step that lead from `s` to `t`, each with what it does. -/
inductive StepKind (s t : State) : Prop where
  /-- R86: RESET is asserted. -/
  | reset (hr : resetNow s.resets = true) (ht : t = takeReset (s.setResets s.resets.tail))
  /-- R66 to R68: a settle step. -/
  | settle (hr : resetNow s.resets = false) (hm : s.block.mode = .settling)
      (ht : t = settleStep (s.setResets (tickResets s.resets)))
  /-- R84, R92: a step in HALTED, or in READY with no word presented. -/
  | quiet (hr : resetNow s.resets = false)
      (hq : s.block.mode = .halted ∨ (s.block.mode = .ready ∧ s.program = []))
      (ht : t = s.setResets (tickResets s.resets))
  /-- R44: a word is accepted. -/
  | accept (w : CmdWord) (rest : List CmdWord) (hr : resetNow s.resets = false) (hm : s.block.mode = .ready)
      (hp : s.program = w :: rest) (haccept : accept w (s.taking rest) = .next t)

/-- Every step is of one of the kinds. -/
theorem step_kind {s t : State} (h : step s = .next t) : StepKind s t := by
  rcases step_cases h with ⟨hr, ht⟩ | ⟨hr, ⟨hm, ht⟩ | ⟨hm, ht⟩ | ⟨hm, hp, ht⟩ | ⟨hm, w, rest, hp, -⟩⟩
  · exact .reset hr ht
  · exact .settle hr hm ht
  · exact .quiet hr (.inl hm) ht
  · exact .quiet hr (.inr ⟨hm, hp⟩) ht
  · exact .accept w rest hr hm hp (step_accepts s hm hr hp ▸ h)

/-! ## The invariant -/

theorem debStart_pos : 1 ≤ Config.params.debStart.toNat := by decide

theorem inv_raiseFault (f : Fault) (s : State) : (raiseFault f s).Inv := by
  refine ⟨fun settling => ?_, ?_⟩
  · cases settling
  · simp

theorem inv_takeReset (s : State) : (takeReset s).Inv :=
  ⟨inv_of_ready _ (Block.afterReset_mode _ _), by simp⟩

/-- R69: a settle step keeps the bounds of the countdowns, and it neither halts nor records a fault. -/
theorem settleStep_keeps_inv {s : State} (hm : s.block.mode = .settling) (hs : s.Inv) : (settleStep s).Inv := by
  obtain ⟨bounds, faultIffHalted⟩ := hs
  have noFault : s.record.fault = none := by simpa [hm] using faultIffHalted
  refine ⟨settle_keeps_inv debStart_pos hm bounds _, ?_⟩
  rcases settle_mode Config.params s.raw.sample s.block hm with mode | ⟨mode, -⟩ <;> simp [mode, noFault]

/-- A word accepted in READY leaves MODE and the record, or is a POLL that sees a press and establishes R69's bounds, or
faults and records it. -/
theorem accept_keeps_inv {w : CmdWord} {s t : State} (hm : s.block.mode = .ready) (hs : s.Inv)
    (h : accept w s = .next t) : t.Inv := by
  obtain ⟨-, faultIffHalted⟩ := hs
  rcases accept_cases h with ⟨mode, fault⟩ | ⟨-, press, record, block⟩ | ⟨f, -, -, rfl⟩
  · exact ⟨inv_of_ready _ (mode.trans hm), by rw [mode, fault]; exact faultIffHalted⟩
  · have settling : t.block.mode = .settling := by rw [block, poll_press _ _ press]; rfl
    refine ⟨block ▸ poll_inv debStart_pos hm _, ?_⟩
    simpa [hm, settling, record] using faultIffHalted
  · exact inv_raiseFault f s

/-- Settles O48: each kind of step by the lemma about it; a quiet step changes neither block nor record. -/
theorem stepKeepsInvariant : Obligations.StepKeepsInvariant := by
  intro s t hs h
  cases step_kind h with
  | reset _ ht => rw [ht]; exact inv_takeReset _
  | settle _ hm ht => rw [ht]; exact settleStep_keeps_inv hm hs
  | quiet _ _ ht => rw [ht]; exact hs
  | accept w rest _ hm _ haccept => exact accept_keeps_inv (s := s.taking rest) hm hs haccept

/-- Settles O49: the machine starts in READY with nothing on record. -/
theorem resetStateMeetsInvariant : Obligations.ResetStateMeetsInvariant :=
  ⟨inv_of_ready _ rfl, by simp [State.reset, Block.reset]⟩

end Sys2Proof.Machine
end

section
/-! MODE and its outputs, faults and RESET (10_state.md R11 to R19, 60_exceptions.md R82 to R87, 70_reset_and_hazards.md
R93): who may change what in a step, read off the kinds of step. -/

namespace Sys2Proof.Machine

/-! ## MODE -/

@[simp] theorem takeReset_mode (s : State) : (takeReset s).block.mode = .ready := rfl

/-- R64, R65: the mode a POLL leaves. -/
theorem poll_press_mode (P : Params) (b : Block) {v : Nibble} (h : v ≠ Config.noButton) :
    (b.poll P v).mode = .settling := by
  rw [poll_press P b h]
  rfl

/-- R15: what a word accepted in READY can do to MODE, with the cause. -/
theorem accept_mode {w : CmdWord} {s t : State} (hm : s.block.mode = .ready) (h : accept w s = .next t) :
    t.block.mode = .ready ∨ (t.block.mode = .settling ∧ w = encode .poll ∧ s.raw.sample ≠ Config.noButton) ∨
    (t.block.mode = .halted ∧ ∃ f, FaultCause f ∧ f.word = w ∧ t = raiseFault f s) := by
  rcases accept_cases h with ⟨mode, -⟩ | ⟨poll, press, -, block⟩ | ⟨f, cause, word, rfl⟩
  · exact .inl (mode.trans hm)
  · exact .inr (.inl ⟨block ▸ poll_press_mode _ _ press, poll, press⟩)
  · exact .inr (.inr ⟨rfl, f, cause, word, rfl⟩)

/-- R15, R82: the only way into HALTED is a word accepted in READY that faults. -/
theorem halting_step {s t : State} (h : step s = .next t) (halts : t.block.mode = .halted)
    (hm : s.block.mode ≠ .halted) :
    s.block.mode = .ready ∧ ∃ w rest f, s.program = w :: rest ∧ FaultCause f ∧ f.word = w ∧
      t = raiseFault f (s.taking rest) := by
  cases step_kind h with
  | reset _ ht => rw [ht, takeReset_mode] at halts; cases halts
  | settle _ settling ht =>
    rw [ht, settleStep_block] at halts
    rcases settle_mode Config.params s.raw.sample s.block settling with mode | ⟨mode, -⟩ <;> cases mode.symm.trans halts
  | quiet _ _ ht => rw [ht] at halts; exact absurd halts hm
  | accept w rest _ ready hp haccept =>
    rcases accept_mode (s := s.taking rest) ready haccept with mode | ⟨mode, -⟩ | ⟨-, f, cause, word, ht⟩
    · cases mode.symm.trans halts
    · cases mode.symm.trans halts
    · exact ⟨ready, w, rest, f, hp, cause, word, ht⟩

/-- R82: a word that faults is Illegal, or a WRN or RDN of cells 8 to 15. -/
theorem FaultCause.of_word {f : Fault} (cause : FaultCause f) :
    (∃ why, decode f.word = .illegal why) ∨
      ∃ c, 8 ≤ c.toNat ∧ ((∃ n, decode f.word = .command (.wrn c n)) ∨ decode f.word = .command (.rdn c)) := by
  cases cause with
  | illegal hd => exact .inl ⟨_, hd⟩
  | cell hc hd => exact .inr ⟨_, hc, hd⟩

/-- R64: the only way from READY to SETTLING is a POLL that sees a press. -/
theorem settling_of_ready {s t : State} (h : step s = .next t) (hm : s.block.mode = .ready)
    (settles : t.block.mode = .settling) :
    ∃ rest, s.program = encode .poll :: rest ∧ s.raw.sample ≠ Config.noButton := by
  cases step_kind h with
  | reset _ ht => rw [ht, takeReset_mode] at settles; cases settles
  | settle _ settling _ => cases hm.symm.trans settling
  | quiet _ _ ht => rw [ht] at settles; cases hm.symm.trans settles
  | accept w rest _ _ hp haccept =>
    rcases accept_mode (s := s.taking rest) hm haccept with mode | ⟨-, rfl, press⟩ | ⟨mode, -⟩
    · cases mode.symm.trans settles
    · exact ⟨rest, hp, press⟩
    · cases mode.symm.trans settles

/-- R66 to R68: MODE after a step in SETTLING. -/
theorem mode_of_settling {s t : State} (h : step s = .next t) (hr : resetNow s.resets = false)
    (hm : s.block.mode = .settling) :
    t.block.mode = .settling ∨
    (t.block.mode = .ready ∧ s.raw.sample = Config.noButton ∧ s.block.k0 = 1 ∧ s.block.k1 = 1 ∧ s.block.k2 = 1) := by
  cases (step_settling s hm hr).symm.trans h
  exact settle_mode Config.params s.raw.sample s.block hm

/-- Settles O45: one lemma for each mode the step starts in; in HALTED it is the quiet step. -/
theorem modeTransitions : Obligations.ModeTransitions := by
  intro s t h
  refine ⟨fun hr => ?_, fun hr => ⟨settling_of_ready h, fun hm halts => ?_, fun hm halts => ?_, fun hm readies => ?_,
    fun hm => ?_⟩⟩
  · cases (step_reset s hr).symm.trans h
    rfl
  · obtain ⟨-, w, rest, f, hp, cause, rfl, -⟩ := halting_step h halts (by rw [hm]; decide)
    exact ⟨f.word, rest, hp, cause.of_word⟩
  · rcases mode_of_settling h hr hm with mode | ⟨mode, -⟩ <;> cases mode.symm.trans halts
  · rcases mode_of_settling h hr hm with mode | ⟨-, released⟩
    · cases mode.symm.trans readies
    · exact released
  · cases (step_halted s hm hr).symm.trans h
    exact hm

/-- Settles O44: the three outputs are defined by tests of MODE. -/
theorem outputsFollowMode : Obligations.OutputsFollowMode := fun _ =>
  ⟨decide_eq_true_iff, decide_eq_true_iff, fun hm => if_pos hm, fun hm => if_neg hm⟩

/-! ## Faults and HALTED -/

/-- Settles O39: `raiseFault` as defined, and `halting_step`. -/
theorem faultEntryChangesModeOnly : Obligations.FaultEntryChangesModeOnly := by
  refine ⟨fun f s => ⟨raiseFault_eq_haltedWith f s, rfl, rfl⟩, fun s t h halts hm => ?_⟩
  obtain ⟨ready, w, rest, f, hp, -, word, rfl⟩ := halting_step h halts hm
  exact ⟨ready, rfl, w, rest, hp, congrArg some word⟩

theorem resetNow_nil : resetNow [] = false := rfl

/-- Settles O40: the step in HALTED is the quiet step, which with no RESET to come leaves the state as it is. -/
theorem haltedUntilReset : Obligations.HaltedUntilReset := by
  intro s hm
  have notEnded : ¬ s.EndedNormally := fun ⟨_, ready⟩ => by cases hm.symm.trans ready
  refine ⟨step_halted s hm, fun hn => run_fixed ?_, notEnded, if_neg notEnded⟩
  rw [step_halted s hm (hn ▸ resetNow_nil), setResets_tick s hn]

/-- Settles O47: so too in READY with no word presented. -/
theorem silentHostChangesNothing : Obligations.SilentHostChangesNothing := by
  intro s hm hp hn
  refine ⟨⟨hp, hm⟩, run_fixed ?_⟩
  rw [step_idle s hm (hn ▸ resetNow_nil) hp, setResets_tick s hn]

/-- R38: an RDN word whose `n` field is not 0 is Illegal, whatever the cell. -/
theorem decode_rdn_nonzero {c n : Nibble} (hn : n ≠ 0) :
    decode (2#4 ++ c ++ n : CmdWord) = .illegal .nonzeroField := by
  simp only [decode, fields_append]
  exact if_neg hn

/-- R82: a step that records a fault where there was none has accepted a word that causes it. -/
theorem recorded_fault {s t : State} {f : Fault} (h : step s = .next t) (hs : s.record.fault = none)
    (ht : t.record.fault = some f) : FaultCause f := by
  cases step_kind h with
  | reset _ e => rw [e] at ht; cases ht
  | settle _ _ e | quiet _ _ e => rw [e] at ht; cases hs.symm.trans ht
  | accept w rest _ _ _ haccept =>
    rcases accept_cases haccept with ⟨-, fault⟩ | ⟨-, -, record, -⟩ | ⟨g, cause, -, rfl⟩
    · cases hs.symm.trans (fault.symm.trans ht)
    · cases hs.symm.trans ((congrArg Record.fault record).symm.trans ht)
    · cases ht
      exact cause

/-- Settles O41: an IllegalCell on record has its cause; an RDN word with a bad `n` field does not decode; RESET takes the
whole step. -/
theorem faultPriority : Obligations.FaultPriority := by
  refine ⟨fun s t w hs h ht => ?_, fun s c n rest hm hr hn hp => ?_, fun s hr => ?_⟩
  · cases recorded_fault h hs ht with
    | cell _ hd => exact ⟨_, hd⟩
  · exact ⟨_, step_illegal s hm hr hp (decode_rdn_nonzero hn), rfl⟩
  · exact ⟨_, step_reset s hr, rfl, rfl, rfl, rfl, rfl⟩

/-! ## RESET -/

/-- Settles O42: the state `step_reset` leads to; 0x0002 in digits is `fromInt 2`. -/
theorem resetGivesResetState : Obligations.ResetGivesResetState := by
  intro s later h
  refine ⟨_, step_reset s (by rw [h]; rfl), rfl, rfl, rfl, rfl, rfl, ?_⟩
  rw [takeReset_resets, State.setResets_resets, h, List.tail_cons]

/-- Settles O43: each value is the one `State.reset` is defined with. -/
theorem startStateAsSpecified : Obligations.StartStateAsSpecified := ⟨rfl, rfl, rfl, rfl, rfl⟩

end Sys2Proof.Machine
end

section
/-! The operand cells and their commands WRN and RDN (20_memory.md R24, 43_operand_access.md R80, R81), and the
pseudo-instructions that are four WRN each (30_encoding.md R43). -/

namespace Sys2Proof.Machine

/-! ## The cells -/

/-- R24: an address is that of a cell, or it is 8 to 15. -/
theorem address_cases (c : CellAddr) : (∃ cell, c = addrOf cell) ∨ 8 ≤ c.toNat := by
  cases hc : cellAt c with
  | some cell => exact .inl ⟨cell, (cellAt_eq_some c cell).mp hc⟩
  | none => exact .inr ((cellAt_eq_none_iff c).mp hc)

/-- R24: below 8 an address is that of a cell. -/
theorem exists_addrOf {c : CellAddr} (hc : c.toNat < 8) : ∃ cell, c = addrOf cell :=
  (address_cases c).resolve_right (Nat.not_le.mpr hc)

@[simp] theorem cell_addrOf (b : Block) (cell : CellName) : b.cell (addrOf cell) = some (b.readDigit cell) := by
  rw [Block.cell, cellAt_addrOf, Option.map_some]

theorem cell_of_unimplemented (b : Block) {c : CellAddr} (hc : 8 ≤ c.toNat) : b.cell c = none := by
  rw [Block.cell, (cellAt_eq_none_iff c).mpr hc, Option.map_none]

/-- R25: a write to one cell is not seen at any other address. -/
theorem cell_writeDigit_of_ne (b : Block) {cell : CellName} (v : Nibble) {c : CellAddr} (h : c ≠ addrOf cell) :
    (b.writeDigit cell v).cell c = b.cell c := by
  cases hc : cellAt c with
  | none => rw [Block.cell, Block.cell, hc, Option.map_none, Option.map_none]
  | some other =>
    obtain rfl := (cellAt_eq_some c other).mp hc
    have differ : other ≠ cell := fun e => h (congrArg addrOf e)
    rw [cell_addrOf, cell_addrOf, readDigit_writeDigit, if_neg differ]

/-! ## The commands -/

theorem exec_wrn (cell : CellName) (n : Nibble) (s : State) :
    exec (.wrn (addrOf cell) n) s = .next (s.setBlock (s.block.writeDigit cell n)) := by
  simp only [exec, execWrn, cellAt_addrOf]

theorem exec_wrn_unimplemented {c : CellAddr} (hc : 8 ≤ c.toNat) (n : Nibble) (s : State) :
    exec (.wrn c n) s = .next (raiseFault (.illegalCell (encode (.wrn c n))) s) := by
  simp only [exec, execWrn, (cellAt_eq_none_iff c).mpr hc]

theorem exec_rdn (cell : CellName) (s : State) :
    exec (.rdn (addrOf cell)) s = .next (s.setBlock (s.block.setDOUT (s.block.readDigit cell))) := by
  simp only [exec, execRdn, cellAt_addrOf]

theorem exec_rdn_unimplemented {c : CellAddr} (hc : 8 ≤ c.toNat) (s : State) :
    exec (.rdn c) s = .next (raiseFault (.illegalCell (encode (.rdn c))) s) := by
  simp only [exec, execRdn, (cellAt_eq_none_iff c).mpr hc]

/-- Settles O25: the eight addresses one by one, and the two faulting commands. -/
theorem cellMap : Obligations.CellMap := fun s =>
  ⟨⟨rfl, rfl, rfl, rfl, rfl, rfl, rfl, rfl⟩, fun _ n hc =>
    ⟨cell_of_unimplemented s.block hc, exec_wrn_unimplemented hc n s, exec_rdn_unimplemented hc s⟩⟩

/-- Settles O26: below 8 the address is that of a cell, and the write is `writeDigit`. -/
theorem wrnWritesOneCell : Obligations.WrnWritesOneCell := by
  refine fun c n s => ⟨rfl, fun hc => ?_, fun hc => exec_wrn_unimplemented hc n s⟩
  obtain ⟨cell, rfl⟩ := exists_addrOf hc
  refine ⟨_, exec_wrn cell n s, ?_, fun c' other => cell_writeDigit_of_ne s.block n other, ?_⟩
  · rw [State.setBlock_block, cell_addrOf, readDigit_writeDigit, if_pos rfl]
  · exact congrArg s.setBlock (writeDigit_frame s.block cell n)

/-- Settles O27: a second RDN reads the same digit, since DOUT is no cell. -/
theorem rdnReadsOneCell : Obligations.RdnReadsOneCell := by
  refine fun c n s => ⟨rfl, fun hc => ?_, fun hc => exec_rdn_unimplemented hc s,
    fun hn => ⟨_, decode_rdn_nonzero hn⟩⟩
  obtain ⟨cell, rfl⟩ := exists_addrOf hc
  have second : ∀ v, (s.block.setDOUT v).readDigit cell = s.block.readDigit cell := fun v => by cases cell <;> rfl
  refine ⟨_, cell_addrOf s.block cell, exec_rdn cell s, ?_⟩
  rw [execList_cons (exec_rdn cell s), execList_cons (exec_rdn cell _), execList_nil, State.setBlock_block, second,
    exec_rdn]
  rfl

/-! ## The pseudo-instructions -/

/-- The word whose digits are the four groups of bits of `v`. -/
def wordOf (v : BitVec 16) : Word16 := ⟨digitOf v 0, digitOf v 1, digitOf v 2, digitOf v 3⟩

theorem digitOf_toNat (v : BitVec 16) (i : Nat) : (digitOf v i).toNat = v.toNat / 16 ^ i % 16 := by
  rw [digitOf, BitVec.extractLsb'_toNat, Nat.shiftRight_eq_div_pow, Nat.pow_mul]

theorem wordOf_toInt (v : BitVec 16) : (wordOf v).toInt = v.toNat := by
  have range := v.isLt
  simp only [Word16.toInt, wordOf, digitOf_toNat]
  omega

theorem execList_lda16 (v : BitVec 16) (s : State) :
    execList (lda16 v) s = .next (s.setBlock (s.block.setA (wordOf v))) := rfl

theorem execList_ldb16 (v : BitVec 16) (s : State) :
    execList (ldb16 v) s = .next (s.setBlock (s.block.setB (wordOf v))) := rfl

/-- Settles O28: the four WRN write the four digits of `wordOf v`, which has the value of `v`. -/
theorem pseudoInstructionsLoad : Obligations.PseudoInstructionsLoad := fun v s =>
  ⟨rfl, rfl, ⟨_, wordOf_toInt v, execList_lda16 v s⟩, ⟨_, wordOf_toInt v, execList_ldb16 v s⟩⟩

end Sys2Proof.Machine
end

section
/-! What a command does to the block, and what it does not see or touch: the writers of A, B, CF, DOUT and BCAP
(10_state.md R11 to R16), the raw port (41_debounce.md R63), the words to come (20_memory.md R30) and CF
(70_reset_and_hazards.md R95). -/

namespace Sys2Proof.Machine

/-! ## Who writes what -/

theorem exec_poll (s : State) :
    exec .poll s = .next (s.afterRead.setBlock (s.block.poll Config.params s.raw.sample)) := rfl

/-- What each command makes of the block `b`: the registers it writes, or HALTED on an unimplemented cell. -/
inductive BlockEffect (b : Block) : Instr → Block → Prop where
  | write (cell : CellName) (n : Nibble) : BlockEffect b (.wrn (addrOf cell) n) (b.writeDigit cell n)
  | badWrite {c : CellAddr} {n : Nibble} (hc : 8 ≤ c.toNat) : BlockEffect b (.wrn c n) (b.setMode .halted)
  | read (cell : CellName) : BlockEffect b (.rdn (addrOf cell)) (b.setDOUT (b.readDigit cell))
  | badRead {c : CellAddr} (hc : 8 ≤ c.toNat) : BlockEffect b (.rdn c) (b.setMode .halted)
  | sum (w : Word16) (cf : Bool) : BlockEffect b .add16 ((b.setA w).setCF cf)
  | difference (w : Word16) (cf : Bool) : BlockEffect b .sub16 ((b.setA w).setCF cf)
  | up : BlockEffect b .stepup (b.adjustStep 1)
  | down : BlockEffect b .stepdn (b.adjustStep 15)
  | sample (v : Nibble) : BlockEffect b .poll (b.poll Config.params v)

theorem exec_blockEffect {i : Instr} {s t : State} (h : exec i s = .next t) : BlockEffect s.block i t.block := by
  cases i with
  | wrn c n =>
    rcases address_cases c with ⟨cell, rfl⟩ | hc
    · cases (exec_wrn cell n s).symm.trans h
      exact .write cell n
    · cases (exec_wrn_unimplemented hc n s).symm.trans h
      exact .badWrite hc
  | rdn c =>
    rcases address_cases c with ⟨cell, rfl⟩ | hc
    · cases (exec_rdn cell s).symm.trans h
      exact .read cell
    · cases (exec_rdn_unimplemented hc s).symm.trans h
      exact .badRead hc
  | add16 => cases h; exact .sum _ _
  | sub16 => cases h; exact .difference _ _
  | stepup => cases h; exact .up
  | stepdn => cases h; exact .down
  | poll => cases h; exact .sample _

/-- R24: cells 0 to 3 are the digits of A, so a write that changes A is to one of them; 4 to 7 are those of B. -/
theorem writeDigit_a_or_b (b : Block) (cell : CellName) (v : Nibble) :
    ((addrOf cell).toNat < 4 ∧ (b.writeDigit cell v).b = b.b) ∨
    (4 ≤ (addrOf cell).toNat ∧ (addrOf cell).toNat < 8 ∧ (b.writeDigit cell v).a = b.a) := by
  cases cell with
  | a0 | a1 | a2 | a3 => exact .inl ⟨by decide, rfl⟩
  | b0 | b1 | b2 | b3 => exact .inr ⟨by decide, by decide, rfl⟩

/-- A POLL writes neither operand register nor CF. -/
theorem poll_frame (P : Params) (v : Nibble) (b : Block) :
    b.poll P v = { b with dout := (b.poll P v).dout, mode := (b.poll P v).mode, bcap := (b.poll P v).bcap,
                          k0 := (b.poll P v).k0, k1 := (b.poll P v).k1, k2 := (b.poll P v).k2 } := by
  by_cases hv : v = Config.noButton
  · rw [hv, poll_released]
    rfl
  · rw [poll_press P b hv]
    rfl

/-- R11: the writers of A. -/
theorem BlockEffect.writes_a {b b' : Block} {i : Instr} (e : BlockEffect b i b') (h : b'.a ≠ b.a) :
    i = .add16 ∨ i = .sub16 ∨ ∃ c n, c.toNat < 4 ∧ i = .wrn c n := by
  cases e with
  | sum => exact .inl rfl
  | difference => exact .inr (.inl rfl)
  | write cell n =>
    rcases writeDigit_a_or_b b cell n with ⟨low, -⟩ | ⟨-, -, same⟩
    · exact .inr (.inr ⟨_, n, low, rfl⟩)
    · exact absurd same h
  | sample v => rw [poll_frame] at h; exact absurd rfl h
  | read | up | down | badWrite | badRead => exact absurd rfl h

/-- R12: the writers of B. -/
theorem BlockEffect.writes_b {b b' : Block} {i : Instr} (e : BlockEffect b i b') (h : b'.b ≠ b.b) :
    i = .stepup ∨ i = .stepdn ∨ ∃ c n, 4 ≤ c.toNat ∧ c.toNat < 8 ∧ i = .wrn c n := by
  cases e with
  | up => exact .inl rfl
  | down => exact .inr (.inl rfl)
  | write cell n =>
    rcases writeDigit_a_or_b b cell n with ⟨-, same⟩ | ⟨low, high, -⟩
    · exact absurd same h
    · exact .inr (.inr ⟨_, n, low, high, rfl⟩)
  | sample v => rw [poll_frame] at h; exact absurd rfl h
  | read | sum | difference | badWrite | badRead => exact absurd rfl h

/-- R13: the writers of CF. -/
theorem BlockEffect.writes_cf {b b' : Block} {i : Instr} (e : BlockEffect b i b') (h : b'.cf ≠ b.cf) :
    i = .add16 ∨ i = .sub16 := by
  cases e with
  | sum => exact .inl rfl
  | difference => exact .inr rfl
  | write cell n => rw [writeDigit_frame] at h; exact absurd rfl h
  | sample v => rw [poll_frame] at h; exact absurd rfl h
  | read | up | down | badWrite | badRead => exact absurd rfl h

/-- R14: the commands that write DOUT. -/
theorem BlockEffect.writes_dout {b b' : Block} {i : Instr} (e : BlockEffect b i b') (h : b'.dout ≠ b.dout) :
    (∃ c, i = .rdn c) ∨ i = .poll := by
  cases e with
  | read => exact .inl ⟨_, rfl⟩
  | sample => exact .inr rfl
  | write cell n => rw [writeDigit_frame] at h; exact absurd rfl h
  | sum | difference | up | down | badWrite | badRead => exact absurd rfl h

/-- R16: the writer of BCAP. -/
theorem BlockEffect.writes_bcap {b b' : Block} {i : Instr} (e : BlockEffect b i b') (h : b'.bcap ≠ b.bcap) :
    i = .poll := by
  cases e with
  | sample => rfl
  | write cell n => rw [writeDigit_frame] at h; exact absurd rfl h
  | read | sum | difference | up | down | badWrite | badRead => exact absurd rfl h

/-- What a step without RESET makes of the block: a settle step in SETTLING, the effect of the command it performs, or
nothing but MODE. -/
theorem step_block {s t : State} (h : step s = .next t) (hr : resetNow s.resets = false) :
    (s.block.mode = .settling ∧ t.block = s.block.settle Config.params s.raw.sample) ∨
    (∃ i, Performs s i ∧ BlockEffect s.block i t.block) ∨ ∃ m, t.block = s.block.setMode m := by
  cases step_kind h with
  | reset reset => cases hr.symm.trans reset
  | settle _ hm ht => exact .inl ⟨hm, ht ▸ rfl⟩
  | quiet _ _ ht => exact .inr (.inr ⟨s.block.mode, ht ▸ rfl⟩)
  | accept w rest _ hm hp haccept =>
    rcases accept_kind haccept with ⟨i, rfl, hexec⟩ | ⟨why, -, rfl⟩
    · exact .inr (.inl ⟨i, ⟨hm, _, rest, hp, decode_encode i⟩, exec_blockEffect (s := s.taking rest) hexec⟩)
    · exact .inr (.inr ⟨.halted, rfl⟩)

/-- R68: a settle step that changes DOUT completes, and returns the captured mask. -/
theorem settle_dout {P : Params} {v : Nibble} {b : Block} (h : (b.settle P v).dout ≠ b.dout) :
    (b.settle P v).mode = .ready ∧ (b.settle P v).dout = b.bcap := by
  rcases settle_cases P v b with ⟨-, e⟩ | ⟨-, x, y, z, e⟩ | ⟨-, -, -, -, e⟩ <;> rw [e] at h ⊢
  · exact absurd rfl h
  · exact absurd rfl h
  · exact ⟨rfl, rfl⟩

/-- Settles O46: `step_block`, then the writers of the element among the commands; of these five a settle step writes
DOUT only. -/
theorem onlyTheseWriters : Obligations.OnlyTheseWriters := by
  intro s t h hr
  rcases step_block h hr with ⟨hm, block⟩ | ⟨i, performs, effect⟩ | ⟨m, block⟩
  · rw [block]
    have frame := settle_frame Config.params s.raw.sample s.block
    exact ⟨fun ha => absurd (congrArg Block.a frame) ha, fun hb => absurd (congrArg Block.b frame) hb,
      fun hcf => absurd (congrArg Block.cf frame) hcf, fun hdout => .inr (.inr ⟨hm, settle_dout hdout⟩),
      fun hbcap => absurd (congrArg Block.bcap frame) hbcap⟩
  · refine ⟨fun ha => ?_, fun hb => ?_, fun hcf => ?_, fun hdout => ?_, fun hbcap => effect.writes_bcap hbcap ▸ performs⟩
    · rcases effect.writes_a ha with rfl | rfl | ⟨c, n, low, rfl⟩
      · exact .inl performs
      · exact .inr (.inl performs)
      · exact .inr (.inr ⟨c, n, low, performs⟩)
    · rcases effect.writes_b hb with rfl | rfl | ⟨c, n, low, high, rfl⟩
      · exact .inl performs
      · exact .inr (.inl performs)
      · exact .inr (.inr ⟨c, n, low, high, performs⟩)
    · rcases effect.writes_cf hcf with rfl | rfl
      · exact .inl performs
      · exact .inr performs
    · rcases effect.writes_dout hdout with ⟨c, rfl⟩ | rfl
      · exact .inl ⟨c, performs⟩
      · exact .inr (.inl performs)
  · rw [block]
    exact ⟨(absurd rfl ·), (absurd rfl ·), (absurd rfl ·), (absurd rfl ·), (absurd rfl ·)⟩

/-! ## The raw port -/

/-- R63: accepting a word reads the raw port exactly when it is POLL's. -/
theorem accept_raw {w : CmdWord} {s t : State} (h : accept w s = .next t) :
    t.raw = if w = encode .poll then s.raw.advance else s.raw := by
  rcases accept_kind h with ⟨i, rfl, hexec⟩ | ⟨why, hd, rfl⟩
  · by_cases hi : i = .poll
    · subst hi
      cases hexec
      exact (if_pos rfl).symm
    · rw [if_neg (encode_injective.ne hi)]
      exact exec_raw i s t hi hexec
  · have notPoll : w ≠ encode .poll := by
      rintro rfl
      cases (decode_encode .poll).symm.trans hd
    exact (if_neg notPoll).symm

/-- Settles O36: in each kind of step the condition is decided, and the port is read accordingly. -/
theorem rawReadOnlyByPollAndSettle : Obligations.RawReadOnlyByPollAndSettle := by
  intro s t h
  cases step_kind h with
  | reset hr ht => rw [ht, if_neg (by simp [hr])]; rfl
  | settle hr hm ht => rw [ht, if_pos ⟨hr, .inl hm⟩]; rfl
  | quiet hr hq ht =>
    rw [ht, if_neg]
    · rfl
    · rintro ⟨-, hm⟩
      rcases hq with halted | ⟨ready, noWord⟩
      · simp [halted] at hm
      · simp [ready, noWord] at hm
  | accept w rest hr hm hp haccept =>
    have pollWord : w = encode .poll ↔ resetNow s.resets = false ∧
        (s.block.mode = .settling ∨ (s.block.mode = .ready ∧ s.program.head? = some 0x700)) := by
      simp only [hr, hm, hp, List.head?_cons, Option.some.injEq, true_and, reduceCtorEq, false_or]
      rfl
    rw [accept_raw haccept]
    simp only [pollWord]
    rfl

/-! ## The words to come -/

/-- R30: no command looks at the words to come, or changes them. -/
theorem exec_setProgram {i : Instr} {s t : State} (h : exec i s = .next t) (p : List CmdWord) :
    exec i (s.setProgram p) = .next (t.setProgram p) := by
  cases i with
  | wrn c n =>
    rcases address_cases c with ⟨cell, rfl⟩ | hc
    · cases (exec_wrn cell n s).symm.trans h
      exact exec_wrn cell n _
    · cases (exec_wrn_unimplemented hc n s).symm.trans h
      exact exec_wrn_unimplemented hc n _
  | rdn c =>
    rcases address_cases c with ⟨cell, rfl⟩ | hc
    · cases (exec_rdn cell s).symm.trans h
      exact exec_rdn cell _
    · cases (exec_rdn_unimplemented hc s).symm.trans h
      exact exec_rdn_unimplemented hc _
  | add16 | sub16 | stepup | stepdn | poll => cases h; rfl

theorem State.setProgram_self {s : State} {p : List CmdWord} (h : s.program = p) : s.setProgram p = s := by
  rw [← h]
  rfl

/-- R30: a command that completes keeps the block ready: it is no POLL and no cell it names is unimplemented. -/
abbrev Completes (i : Instr) : Prop :=
  i ≠ .poll ∧ (∀ c n, i = .wrn c n → c.toNat < 8) ∧ ∀ c, i = .rdn c → c.toNat < 8

theorem exec_completes {i : Instr} (hi : Completes i) (s : State) :
    ∃ t, exec i s = .next t ∧ t.program = s.program ∧ t.resets = s.resets ∧ t.block.mode = s.block.mode := by
  obtain ⟨noPoll, write, read⟩ := hi
  obtain ⟨t, h, program, resets, -, ⟨mode, -⟩ | ⟨poll, -⟩ | ⟨-, c, hc, unimplemented⟩⟩ := exec_cases i s
  · exact ⟨t, h, program, resets, mode⟩
  · exact absurd poll noPoll
  · have bad := (cellAt_eq_none_iff c).mp hc
    rcases unimplemented with e | ⟨n, e⟩
    · exact absurd (read c e) (Nat.not_lt.mpr bad)
    · exact absurd (write c n e) (Nat.not_lt.mpr bad)

/-- Settles O38, by induction on the list: one step performs the first command and leaves a state of the same kind with
the rest of the words to come. -/
theorem commandsTakeEffectInOrder : Obligations.CommandsTakeEffectInOrder := by
  intro is
  induction is with
  | nil => exact fun s rest hm _ hp _ => ⟨s, congrArg _ (State.setProgram_self hp), rfl, hm, hp⟩
  | cons i is ih =>
    intro s rest hm hn hp complete
    obtain ⟨first, later⟩ := List.forall_mem_cons.mp complete
    obtain ⟨t, hexec, program, resets, mode⟩ := exec_completes first (s.setProgram rest)
    have hstep : step s = .next (t.setProgram (is.map encode ++ rest)) := by
      rw [step_command s hm (hn ▸ resetNow_nil) hp (decode_encode i), State.taking_of_no_reset s _ hn]
      exact exec_setProgram hexec _
    obtain ⟨u, hlist, hrun, done⟩ :=
      ih (t.setProgram (is.map encode ++ rest)) rest (mode.trans hm) (resets.trans hn) rfl later
    refine ⟨u, (execList_cons hexec is).trans ?_, (run_succ hstep _).trans hrun, done⟩
    rw [← hlist]
    exact congrArg _ (State.setProgram_self program).symm

/-! ## CF -/

theorem writeDigit_setCF (b : Block) (cell : CellName) (n : Nibble) (v : Bool) :
    (b.setCF v).writeDigit cell n = (b.writeDigit cell n).setCF v := by
  cases cell <;> rfl

theorem readDigit_setCF (b : Block) (cell : CellName) (v : Bool) : (b.setCF v).readDigit cell = b.readDigit cell := by
  cases cell <;> rfl

theorem poll_setCF (P : Params) (b : Block) (x : Nibble) (v : Bool) : (b.setCF v).poll P x = (b.poll P x).setCF v := by
  by_cases hx : x = Config.noButton
  · rw [hx, poll_released, poll_released]
    rfl
  · rw [poll_press _ _ hx, poll_press _ _ hx]
    rfl

/-- The state with CF at `v`. -/
def State.withCF (s : State) (v : Bool) : State := s.setBlock (s.block.setCF v)

/-- R46: a pass clears CF first, so ADD16 and SUB16 do not see it. -/
theorem exec_arith_withCF {i : Instr} (hi : i = .add16 ∨ i = .sub16) (s : State) (v : Bool) :
    exec i (s.withCF v) = exec i s := by
  rcases hi with rfl | rfl <;> rfl

/-- R22: a command other than ADD16 and SUB16 neither reads nor writes CF. -/
theorem exec_withCF {i : Instr} {s t : State} (hi : ¬ (i = .add16 ∨ i = .sub16)) (h : exec i s = .next t) (v : Bool) :
    exec i (s.withCF v) = .next (t.withCF v) := by
  cases i with
  | wrn c n =>
    rcases address_cases c with ⟨cell, rfl⟩ | hc
    · cases (exec_wrn cell n s).symm.trans h
      rw [exec_wrn, State.withCF, State.setBlock_block, writeDigit_setCF]
      rfl
    · cases (exec_wrn_unimplemented hc n s).symm.trans h
      exact exec_wrn_unimplemented hc n _
  | rdn c =>
    rcases address_cases c with ⟨cell, rfl⟩ | hc
    · cases (exec_rdn cell s).symm.trans h
      rw [exec_rdn, State.withCF, State.setBlock_block, readDigit_setCF]
      rfl
    · cases (exec_rdn_unimplemented hc s).symm.trans h
      exact exec_rdn_unimplemented hc _
  | poll =>
    cases (exec_poll s).symm.trans h
    rw [exec_poll, State.withCF, State.setBlock_block, State.setBlock_raw, poll_setCF]
    rfl
  | stepup | stepdn => cases h; rfl
  | add16 | sub16 => simp at hi

/-- Settles O20: the arithmetic commands by `exec_arith_withCF`, the others by `exec_withCF`. -/
theorem carryNeverLeaks : Obligations.CarryNeverLeaks := by
  intro i s v
  obtain ⟨t, h⟩ := exec_next i s
  refine ⟨t, h, ?_⟩
  by_cases hi : i = .add16 ∨ i = .sub16
  · rw [if_pos hi, ← h]
    exact exec_arith_withCF hi s v
  · rw [if_neg hi]
    exact exec_withCF hi h v

end Sys2Proof.Machine
end

section
/-! POLL and the settle steps (41_debounce.md R63 to R71): each as one step of the machine, and then a whole POLL over the
raw samples. Along a run, `SettledBy k` of the samples read so far says that the last `k` of them are released, and the
counter `rem` of R69 is what is left of SETTLE_LEN after the longest such `k`. -/

namespace Sys2Proof.Machine

/-! ## One step -/

/-- Settles O29: a read, then the released or the captured sample. -/
theorem pollSamplesOnce : Obligations.PollSamplesOnce := by
  refine ⟨oneWordOnly_encode .poll (by decide), fun s v rest h => by rw [RawPort.sample, h], fun s => ?_⟩
  rw [exec_poll]
  by_cases hv : s.raw.sample = 15
  · have released : s.raw.sample = Config.noButton := hv
    rw [if_pos hv, released, poll_released]
    rfl
  · rw [poll_press _ _ hv, if_neg hv]
    rfl

/-- Settles O30: the countdowns are reloaded with DEB_START, which is 15. -/
theorem unstableSampleReloads : Obligations.UnstableSampleReloads := by
  intro s hm hr hv
  rw [step_settling s hm hr, settleStep, State.setResets_raw, settle_unstable _ _ hv]
  rfl

theorem sub_one_eq_ofNat {k : Nibble} (h : 1 ≤ k.toNat) : k - 1 = BitVec.ofNat 4 (k.toNat - 1) :=
  nibble_eq_of_toNat (sub_one_toNat h)

/-- Settles O31: the four cases of `countDown_cases`, in the order in which the statement tests them. -/
theorem releasedSampleCountsDown : Obligations.ReleasedSampleCountsDown := by
  intro s hm hr hv h0 h1 h2
  have released : s.raw.sample = Config.noButton := hv
  rw [step_settling s hm hr, settleStep, State.setResets_raw, released, settle_released, State.setResets_block]
  have notAbove : ∀ {k : Nibble}, k = 1 → ¬ 1 < k.toNat := by rintro _ rfl; decide
  rcases countDown_cases Config.params s.block h0 h1 h2 with ⟨gt0, e⟩ | ⟨e0, gt1, e⟩ | ⟨e0, e1, gt2, e⟩ |
    ⟨e0, e1, e2, e⟩
  · rw [e, if_pos gt0, sub_one_eq_ofNat h0]
    rfl
  · rw [e, if_neg (notAbove e0), if_pos gt1, sub_one_eq_ofNat h1]
    rfl
  · rw [e, if_neg (notAbove e0), if_neg (notAbove e1), if_pos gt2, sub_one_eq_ofNat h2]
    rfl
  · rw [e, if_neg (notAbove e0), if_neg (notAbove e1), if_neg (notAbove e2)]
    rfl

/-- Settles O35: the frame of the settle step of the debouncer. -/
theorem settleStepFrame : Obligations.SettleStepFrame := fun s hm hr =>
  ⟨_, step_settling s hm hr,
    congrArg (fun b => ((s.setResets (tickResets s.resets)).setRaw s.raw.advance).setBlock b)
      (settle_frame Config.params s.raw.sample s.block)⟩

/-! ## A button held -/

theorem sample_of_script {r : RawPort} {v : Nibble} {vs : List Nibble} (h : r.script = v :: vs) : r.sample = v := by
  rw [RawPort.sample, h]

theorem step_settling_of_no_reset {s : State} (hm : s.block.mode = .settling) (hn : s.resets = []) :
    step s = .next (settleStep s) := by
  rw [step_settling s hm (hn ▸ resetNow_nil), setResets_tick s hn]

/-- Settles O34, by induction on the number of samples: an unstable sample leaves a settling state with the samples after
it to come, and none of the elements named changes. -/
theorem heldButtonNeverTimesOut : Obligations.HeldButtonNeverTimesOut := by
  intro s n
  induction n generalizing s with
  | zero => exact fun hm _ _ _ => ⟨s, rfl, decide_eq_true hm, by rw [State.halt, hm]; rfl, rfl, rfl, rfl, rfl, rfl⟩
  | succ n ih =>
    intro hm hn hlen held
    cases hscript : s.raw.script with
    | nil => simp [hscript] at hlen
    | cons v vs =>
      rw [hscript] at hlen held
      obtain ⟨unstable, heldOn⟩ := List.forall_mem_cons.mp held
      have hblock : (settleStep s).block = s.block.loadCountdowns Config.params := by
        rw [settleStep_block, sample_of_script hscript, settle_unstable _ _ unstable]
      have hvs : (settleStep s).raw.script = vs := by
        rw [settleStep_raw, RawPort.advance_script, hscript, List.tail_cons]
      obtain ⟨t, hrun, busy, halt, program, record, a, b, dout⟩ :=
        ih (settleStep s) (hblock ▸ hm) hn (hvs ▸ Nat.le_of_succ_le_succ hlen) (hvs ▸ heldOn)
      rw [hblock] at a b dout
      exact ⟨t, (run_succ (step_settling_of_no_reset hm hn) n).trans hrun, busy, halt, program, record, a, b, dout⟩

/-! ## The samples read so far -/

theorem settledBy_zero {ss : List Nibble} {n : Nat} (hn : n ≤ ss.length) : SettledBy 0 ss n := by
  refine ⟨Nat.zero_le n, hn, ?_⟩
  rw [Nat.sub_zero, List.drop_eq_nil_of_le (List.length_take_le n ss)]
  exact List.forall_mem_nil _

/-- One more released sample at the end of the run. -/
theorem settledBy_succ_iff {ss : List Nibble} {n : Nat} (hn : n < ss.length) (k : Nat) :
    SettledBy (k + 1) ss (n + 1) ↔ SettledBy k ss n ∧ ss[n] = Config.noButton := by
  have window : k ≤ n → (ss.take (n + 1)).drop (n + 1 - (k + 1)) = (ss.take n).drop (n - k) ++ [ss[n]] := by
    intro hk
    rw [Nat.succ_sub_succ, List.take_succ_eq_append_getElem hn, List.drop_append_of_le_length]
    rw [List.length_take]
    omega
  constructor
  · rintro ⟨hk, -, released⟩
    rw [window (Nat.le_of_succ_le_succ hk), List.forall_mem_append] at released
    exact ⟨⟨Nat.le_of_succ_le_succ hk, hn.le, released.1⟩, released.2 _ (List.mem_singleton_self _)⟩
  · rintro ⟨⟨hk, -, released⟩, last⟩
    refine ⟨Nat.succ_le_succ hk, hn, ?_⟩
    rw [window hk, List.forall_mem_append]
    exact ⟨released, fun v hv => List.mem_singleton.mp hv ▸ last⟩

/-- Of `L` released samples in a row, `r` are still to come after the longest run that ends with sample number `n`. -/
def StillToCome (L : Nat) (ss : List Nibble) (n r : Nat) : Prop := ∀ k, SettledBy k ss n ↔ k + r ≤ L

theorem stillToCome_zero (L : Nat) (ss : List Nibble) : StillToCome L ss 0 L := by
  intro k
  refine ⟨fun ⟨hk, _⟩ => by omega, fun hk => ?_⟩
  obtain rfl : k = 0 := by omega
  exact settledBy_zero (Nat.zero_le _)

/-- A released sample makes every run longer by one. -/
theorem StillToCome.released {L n r : Nat} {ss : List Nibble} (hn : n < ss.length) (hr : r ≤ L)
    (last : ss[n] = Config.noButton) (h : StillToCome L ss n (r + 1)) : StillToCome L ss (n + 1) r := by
  intro k
  cases k with
  | zero => exact iff_of_true (settledBy_zero hn) (by omega)
  | succ k =>
    rw [settledBy_succ_iff hn, h k, and_iff_left last]
    omega

/-- An unstable sample ends every run. -/
theorem stillToCome_of_unstable (L : Nat) {n : Nat} {ss : List Nibble} (hn : n < ss.length)
    (last : ss[n] ≠ Config.noButton) : StillToCome L ss (n + 1) L := by
  intro k
  cases k with
  | zero => exact iff_of_true (settledBy_zero hn) (by omega)
  | succ k =>
    rw [settledBy_succ_iff hn]
    exact iff_of_false (fun h => last h.2) (by omega)

/-- With one to come, a released sample completes the run, and nothing else does. -/
theorem StillToCome.settledBy_succ_iff {L n r : Nat} {ss : List Nibble} (hn : n < ss.length) (hL : 1 ≤ L) (hr : 1 ≤ r)
    (h : StillToCome L ss n r) : SettledBy L ss (n + 1) ↔ r = 1 ∧ ss[n] = Config.noButton := by
  obtain ⟨k, rfl⟩ := Nat.exists_eq_add_of_le' hL
  rw [Machine.settledBy_succ_iff hn, h k]
  have one : k + r ≤ k + 1 ↔ r = 1 := by omega
  rw [one]

/-! ## The settle loop -/

/-- R5: SETTLE_LEN of the default build. -/
theorem settleLen_eq : Config.params.settleLen = 3375 := rfl

/-- The state `t` of a settle loop entered from `s` with the samples `ss` to come, `n` settle steps later and still
settling: the counter of R69 is what is still to come of SETTLE_LEN released samples. -/
structure SettlingAfter (s : State) (ss : List Nibble) (n : Nat) (t : State) : Prop where
  state : ∃ x y z, t = { s with
    raw := { script := ss.drop n, reads := s.raw.reads + n }
    block := s.block.setK x y z }
  range : t.block.CountsInRange Config.params
  counter : StillToCome 3375 ss n (t.block.rem Config.params)

theorem settlingAfter_zero {s : State} {ss : List Nibble} (hscript : s.raw.script = ss)
    (loaded : s.block.loadCountdowns Config.params = s.block) : SettlingAfter s ss 0 s where
  state := by subst hscript; exact ⟨_, _, _, rfl⟩
  range := loaded ▸ loadCountdowns_countsInRange s.block debStart_pos
  counter := by
    rw [← loaded, rem_loadCountdowns _ debStart_pos, settleLen_eq]
    exact stillToCome_zero 3375 ss

/-- The next step reads the next sample of `ss`. -/
theorem SettlingAfter.step_eq {s t : State} {ss : List Nibble} {n : Nat} (h : SettlingAfter s ss n t)
    (hm : s.block.mode = .settling) (hr : s.resets = []) (hn : n < ss.length) :
    step t = .next { s with
      raw := { script := ss.drop (n + 1), reads := s.raw.reads + (n + 1) }
      block := t.block.settle Config.params ss[n] } := by
  obtain ⟨x, y, z, ht⟩ := h.state
  have mode : t.block.mode = .settling := ht ▸ hm
  have noReset : t.resets = [] := ht ▸ hr
  have script : t.raw.script = ss[n] :: ss.drop (n + 1) := by rw [ht]; exact List.drop_eq_getElem_cons hn
  rw [step_settling_of_no_reset mode noReset, settleStep, sample_of_script script, State.afterRead, RawPort.advance,
    script, List.tail_cons, ht]
  rfl

/-- A settle step that does not complete the run of released samples leaves the loop settling: an unstable sample loads
the counter, a released one lowers it. -/
theorem SettlingAfter.step_settles {s t : State} {ss : List Nibble} {n : Nat} (h : SettlingAfter s ss n t)
    (hm : s.block.mode = .settling) (hr : s.resets = []) (hn : n < ss.length) (notYet : ¬ SettledBy 3375 ss (n + 1)) :
    ∃ u, step t = .next u ∧ SettlingAfter s ss (n + 1) u := by
  refine ⟨_, h.step_eq hm hr hn, ?_⟩
  obtain ⟨⟨x, y, z, rfl⟩, range, counter⟩ := h
  by_cases last : ss[n] = Config.noButton
  · rw [last, settle_released]
    rcases countDown_lowers_or_completes debStart_pos range with ⟨x', y', z', e, range', lowers⟩ | ⟨e0, e1, e2, -⟩
    · rw [e]
      refine ⟨⟨x', y', z', rfl⟩, range', .released hn ?_ last (lowers ▸ counter)⟩
      exact settleLen_eq ▸ rem_le_settleLen debStart_pos range'
    · have one := rem_of_ones Config.params e0 e1 e2
      exact absurd ((counter.settledBy_succ_iff hn (by decide) one.ge).mpr ⟨one, last⟩) notYet
  · rw [settle_unstable _ _ last]
    refine ⟨⟨_, _, _, rfl⟩, loadCountdowns_countsInRange _ debStart_pos, ?_⟩
    rw [rem_loadCountdowns _ debStart_pos, settleLen_eq]
    exact stillToCome_of_unstable 3375 hn last

/-- The settle step that completes the run returns the captured mask. -/
theorem SettlingAfter.step_completes {s t : State} {ss : List Nibble} {n : Nat} (h : SettlingAfter s ss n t)
    (hm : s.block.mode = .settling) (hr : s.resets = []) (hn : n < ss.length) (settled : SettledBy 3375 ss (n + 1)) :
    step t = .next { s with
      raw := { script := ss.drop (n + 1), reads := s.raw.reads + (n + 1) }
      block := (s.block.setK 15 15 0).complete } := by
  obtain ⟨one, last⟩ := (h.counter.settledBy_succ_iff hn (by decide) (one_le_rem h.range.1.1)).mp settled
  rw [h.step_eq hm hr hn, last, settle_released_of_rem_eq_one debStart_pos h.range one]
  obtain ⟨x, y, z, rfl⟩ := h.state
  rfl

/-- A run with one more step at its end. -/
theorem run_snoc {s t u : State} {n : Nat} (h : Sys2Proof.core.run n s = .next t) (hstep : step t = .next u) :
    Sys2Proof.core.run (n + 1) s = .next u := by
  rw [run_add h, run_succ hstep, run_zero]

/-- As long as SETTLE_LEN released samples in a row have not been read, the loop settles. -/
theorem run_settles {s : State} {ss : List Nibble} (hm : s.block.mode = .settling) (hr : s.resets = [])
    (h0 : SettlingAfter s ss 0 s) (n : Nat) (hn : n ≤ ss.length) (notYet : ∀ m ≤ n, ¬ SettledBy 3375 ss m) :
    ∃ t, Sys2Proof.core.run n s = .next t ∧ SettlingAfter s ss n t := by
  induction n with
  | zero => exact ⟨s, rfl, h0⟩
  | succ n ih =>
    obtain ⟨t, hrun, ht⟩ := ih (Nat.le_of_succ_le hn) fun m hm => notYet m (Nat.le_succ_of_le hm)
    obtain ⟨u, hstep, hu⟩ := ht.step_settles hm hr hn (notYet _ le_rfl)
    exact ⟨u, run_snoc hrun hstep, hu⟩

/-! ## A whole POLL -/

/-- The state after the command step of a POLL on the sample `s0`, with `ss` still to come. -/
def State.polled (s : State) (rest : List CmdWord) (s0 : Nibble) (ss : List Nibble) : State :=
  { s with program := rest, raw := { script := ss, reads := s.raw.reads + 1 },
           block := s.block.poll Config.params s0 }

theorem step_poll {s : State} {s0 : Nibble} {ss : List Nibble} {rest : List CmdWord} (hm : s.block.mode = .ready)
    (hr : s.resets = []) (hp : s.program = encode .poll :: rest) (hscript : s.raw.script = s0 :: ss) :
    step s = .next (s.polled rest s0 ss) := by
  rw [step_command s hm (hr ▸ resetNow_nil) hp (decode_encode .poll), State.taking_of_no_reset s _ hr, exec_poll,
    State.setProgram_raw, sample_of_script hscript, State.afterRead, RawPort.advance, State.setProgram_raw, hscript]
  rfl

/-- R65: a POLL that sees a press enters the settle loop with the countdowns loaded. -/
theorem settlingAfter_polled (s : State) (rest : List CmdWord) {s0 : Nibble} (ss : List Nibble)
    (press : s0 ≠ Config.noButton) : SettlingAfter (s.polled rest s0 ss) ss 0 (s.polled rest s0 ss) := by
  refine settlingAfter_zero rfl ?_
  rw [State.polled, poll_press _ _ press]
  rfl

/-- Settles O33: the command step, then `run_settles` up to the sample before the one that completes the run, which
`step_completes` returns. -/
theorem pollReturnsFirstRead : Obligations.PollReturnsFirstRead := by
  intro s s0 ss rest hm hr hp hscript
  have first := step_poll hm hr hp hscript
  have settling : s0 ≠ 15 → (s.polled rest s0 ss).block.mode = .settling := poll_press_mode Config.params s.block
  refine ⟨fun released => ?_, fun m press settled least => ?_, fun n press hn notYet => ?_⟩
  · have block : s.block.poll Config.params s0 = s.block.setDOUT 15 := by rw [released]; exact poll_released ..
    rw [first, State.polled, block]
    rfl
  · have atLeast : 3375 ≤ m := settled.1
    have within : m ≤ ss.length := settled.2.1
    obtain ⟨n, rfl⟩ : ∃ n, m = n + 1 := Nat.exists_eq_add_of_le' (by omega)
    obtain ⟨t, hrun, ht⟩ := run_settles (settling press) hr (settlingAfter_polled s rest ss press) n (by omega)
      fun m hm => least m (by omega)
    refine ⟨atLeast, ?_⟩
    rw [run_succ first, run_snoc hrun (ht.step_completes (settling press) hr within settled), State.polled,
      poll_press _ _ press, Nat.add_right_comm]
    rfl
  · obtain ⟨t, hrun, ht⟩ := run_settles (settling press) hr (settlingAfter_polled s rest ss press) n hn notYet
    refine ⟨t, (run_succ first n).trans hrun, ?_⟩
    obtain ⟨x, y, z, rfl⟩ := ht.state
    refine ⟨settling press, rfl, ?_⟩
    rw [State.polled, poll_press _ _ press, Nat.add_right_comm]
    exact ⟨rfl, rfl, rfl⟩

end Sys2Proof.Machine
end

section
/-! Which words decode, and how many (30_encoding.md R37 to R39): a word is legal exactly when it is the word of a
command, so the legal words are counted by counting the commands. -/

namespace Sys2Proof

/-- R37, R38: the check of the fields passes exactly for the fields of a command. -/
theorem wf_iff_exists_fields (f : Fields) : f.wf = true ↔ ∃ i : Instr, f = i.fields := by
  constructor
  · obtain ⟨op, c, n⟩ := f
    intro h
    unfold Fields.wf at h
    dsimp only at h
    split at h
    case h_1 hop => exact ⟨.wrn c n, by rw [nibble_eq_of_toNat hop]; rfl⟩
    case h_2 hop =>
      obtain rfl := eq_of_beq h
      exact ⟨.rdn c, by rw [nibble_eq_of_toNat hop]; rfl⟩
    case h_8 => cases h
    all_goals
      rename_i hop
      obtain ⟨hc, hn⟩ := (Bool.and_eq_true _ _).mp h
      obtain rfl := eq_of_beq hc
      obtain rfl := eq_of_beq hn
      rw [nibble_eq_of_toNat hop]
    case h_3 => exact ⟨.add16, rfl⟩
    case h_4 => exact ⟨.sub16, rfl⟩
    case h_5 => exact ⟨.stepup, rfl⟩
    case h_6 => exact ⟨.stepdn, rfl⟩
    case h_7 => exact ⟨.poll, rfl⟩
  · rintro ⟨i, rfl⟩
    cases i <;> rfl

/-- Settles O3: both sides say that the fields are those of some command. -/
theorem decodesExactlyWellFormedFields : Obligations.DecodesExactlyWellFormedFields := fun w => by
  simp only [wf_iff_exists_fields, decode_eq_command_iff]

/-! ## Counting -/

/-- The sixteen Nibbles. -/
def nibbles : List Nibble := (List.range 16).map (BitVec.ofNat 4)

theorem mem_nibbles (x : Nibble) : x ∈ nibbles := by
  revert x; decide

theorem nodup_nibbles : nibbles.Nodup := by decide

/-- R37: every command: 256 WRN, 16 RDN and five others. -/
def commands : List Instr :=
  (nibbles ×ˢ nibbles).map (fun p => .wrn p.1 p.2) ++ (nibbles.map .rdn ++ [.add16, .sub16, .stepup, .stepdn, .poll])

theorem mem_commands (i : Instr) : i ∈ commands := by
  cases i <;> simp [commands, mem_nibbles]

theorem nodup_commands : commands.Nodup := by
  have wrns : ((nibbles ×ˢ nibbles).map fun p => Instr.wrn p.1 p.2).Nodup :=
    (nodup_nibbles.product nodup_nibbles).map fun p q h => by
      obtain ⟨hc, hn⟩ := Instr.wrn.inj h
      exact Prod.ext hc hn
  have rdns : (nibbles.map Instr.rdn).Nodup := nodup_nibbles.map fun c d => Instr.rdn.inj
  refine wrns.append (rdns.append (by decide) fun i hi => ?_) fun i hi => ?_
  · obtain ⟨c, -, rfl⟩ := List.mem_map.mp hi
    simp
  · obtain ⟨p, -, rfl⟩ := List.mem_map.mp hi
    simp

theorem length_commands : commands.length = 277 := by
  simp [commands, nibbles, List.length_product]

/-- A number below 4096 decodes exactly when it is the number of a command's word. -/
theorem decodeTableWord_isSome_iff {k : Nat} (hk : k < 4096) :
    (decodeTableWord 12 k).isSome = true ↔ ∃ i, (encode i).toNat = k := by
  have port : portWord 12 k = BitVec.ofNat 12 k := congrArg _ (Nat.mod_eq_of_lt hk)
  rw [decodeTableWord, port]
  constructor
  · cases hd : decode (BitVec.ofNat 12 k) with
    | command i =>
      exact fun _ => ⟨i, by rw [encode_of_decode hd, BitVec.toNat_ofNat, Nat.mod_eq_of_lt hk]⟩
    | illegal why => exact fun h => nomatch h
  · rintro ⟨i, rfl⟩
    rw [BitVec.ofNat_toNat, BitVec.setWidth_eq, decode_encode]
    rfl

/-- Settles O4: the numbers that decode are, up to their order, the numbers of the words of the 277 commands. -/
theorem legalWordCount : Obligations.LegalWordCount := by
  have numbers : ((List.range 4096).filter fun k => (decodeTableWord 12 k).isSome).Perm
      (commands.map fun i => (encode i).toNat) := by
    rw [List.perm_ext_iff_of_nodup (List.nodup_range.filter _)
      (nodup_commands.map fun i j h => Machine.encode_injective (BitVec.eq_of_toNat_eq h))]
    intro k
    rw [List.mem_filter, List.mem_range, List.mem_map]
    constructor
    · rintro ⟨hk, h⟩
      obtain ⟨i, hi⟩ := (decodeTableWord_isSome_iff hk).mp h
      exact ⟨i, mem_commands i, hi⟩
    · rintro ⟨i, -, rfl⟩
      exact ⟨(encode i).isLt, (decodeTableWord_isSome_iff (encode i).isLt).mpr ⟨i, rfl⟩⟩
  rw [Obligations.LegalWordCount, numbers.length_eq, List.length_map, length_commands]

/-- Settles O5: the decoder evaluated on the thirteen words of the table. -/
theorem sampleWordsDecode : Obligations.SampleWordsDecode := by
  unfold Obligations.SampleWordsDecode
  decide

end Sys2Proof
end

section
/-! Signed reading, the in-place pass and the traces of the arithmetic commands (40_arith.md R51, R58, R61,
70_reset_and_hazards.md R98), and the HOST's HANDLE_BUTTON (42_step_adjust.md R78). -/

namespace Sys2Proof.Machine

/-- R61: the signed reading is the value of the word, less 65536 from 0x8000 on. -/
theorem toSigned_cases (w : Word16) :
    (w.toInt < 32768 ∧ w.toSigned = w.toInt) ∨ (32768 ≤ w.toInt ∧ w.toSigned = (w.toInt : Int) - 65536) := by
  have := w.d0.isLt; have := w.d1.isLt; have := w.d2.isLt
  by_cases sign : 8 ≤ w.d3.toNat
  · exact .inr ⟨by unfold Word16.toInt; omega, if_pos sign⟩
  · exact .inl ⟨by unfold Word16.toInt; omega, if_neg sign⟩

theorem toSigned_range (w : Word16) : -32768 ≤ w.toSigned ∧ w.toSigned ≤ 32767 := by
  have range := w.toInt_le
  rcases toSigned_cases w with ⟨_, h⟩ | ⟨_, h⟩ <;> rw [h] <;> omega

/-- R61: both readings of a word are the same modulo 65536. -/
theorem toSigned_emod (w : Word16) : w.toSigned % 65536 = w.toInt % 65536 := by
  rcases toSigned_cases w with ⟨_, h⟩ | ⟨_, h⟩ <;> rw [h]
  omega

/-- Settles O14: modulo 65536 the signed readings are the values, whose sum and difference the two passes give. -/
theorem signedReadingAgrees : Obligations.SignedReadingAgrees := by
  intro a b
  have readA := toSigned_emod a
  have readB := toSigned_emod b
  have readSum := toSigned_emod (add16 a b)
  have readDifference := toSigned_emod (sub16 a b)
  have sum := add16_toInt a b
  have difference := sub16_toInt a b
  exact ⟨toSigned_range a, by omega, by omega⟩

/-- Settles O15: `passInPlace_eq`. -/
theorem inPlaceUpdateSafe : Obligations.InPlaceUpdateSafe := passInPlace_eq

/-- Settles O18: the next states `exec_add16` and `exec_sub16`, whose A is the result of the recorded pass. -/
theorem arithmeticRecordsItsTraces : Obligations.ArithmeticRecordsItsTraces :=
  ⟨fun s => ⟨_, exec_add16 s, rfl, (add16_eq_fromInt s.block.a s.block.b).symm⟩,
   fun s => ⟨_, exec_sub16 s, (sub16_eq_fromInt s.block.a s.block.b).symm, rfl⟩,
   fun _ _ _ => rfl⟩

theorem handleButton_up (ids : ButtonIds) : handleButton ids ids.up = some .stepup := if_pos rfl

theorem handleButton_down {ids : ButtonIds} (h : ids.down ≠ ids.up) : handleButton ids ids.down = some .stepdn := by
  rw [handleButton, if_neg h, if_pos rfl]

theorem handleButton_other {ids : ButtonIds} {btn : Nibble} (hup : btn ≠ ids.up) (hdown : btn ≠ ids.down) :
    handleButton ids btn = none := by
  rw [handleButton, if_neg hup, if_neg hdown]

/-- Settles O24: the three answers of `handleButton`; R5 keeps the other masks apart from UP and DOWN. -/
theorem handleButtonComparesMask : Obligations.HandleButtonComparesMask := by
  refine ⟨fun ids btn => ⟨?_, ?_, fun h => handleButton_other h.1 h.2⟩, fun ids wf => ?_⟩
  · rintro rfl
    exact handleButton_up ids
  · rintro ⟨notUp, rfl⟩
    exact handleButton_down notUp
  · simp only [ButtonIds.wf, Bool.and_eq_true, bne_iff_ne] at wf
    obtain ⟨⟨⟨⟨⟨⟨⟨⟨⟨upSet, downSet⟩, -⟩, -⟩, upDown⟩, upLeft⟩, upRight⟩, downLeft⟩, downRight⟩, -⟩ := wf
    exact ⟨handleButton_down upDown.symm, handleButton_other upLeft.symm downLeft.symm,
      handleButton_other upRight.symm downRight.symm, handleButton_other upSet.symm downSet.symm⟩

end Sys2Proof.Machine
end

section
/-! The text of a command (30_encoding.md R42): how a line is cut into words, and what a line of one operand or two
assembles to. -/

namespace Sys2Proof.Machine

/-! ## Words of a line -/

/-- R42: the characters that end a word of a line. -/
def endsWord (c : Char) : Bool := c == ';' || c == ',' || c == ' ' || c == '\t'

/-- R42: a word of a line: one or more characters of which none ends it. -/
def IsWord (cs : List Char) : Bool := !cs.isEmpty && cs.all (!endsWord ·)

theorem isWord_iff (cs : List Char) : IsWord cs = true ↔ cs ≠ [] ∧ ∀ c ∈ cs, endsWord c = false := by
  simp [IsWord]

/-- Any other character is collected. -/
theorem tokenize_cons {c : Char} (h : endsWord c = false) (acc cs : List Char) :
    tokenize acc (c :: cs) = tokenize (c :: acc) cs := by
  simp only [endsWord, Bool.or_eq_false_iff, beq_eq_false_iff_ne] at h
  obtain ⟨⟨⟨noComment, noComma⟩, noBlank⟩, noTab⟩ := h
  rw [tokenize] <;> assumption

/-- The characters of a word are collected, backwards. -/
theorem tokenize_append {cs : List Char} (h : ∀ c ∈ cs, endsWord c = false) (acc rest : List Char) :
    tokenize acc (cs ++ rest) = tokenize (cs.reverse ++ acc) rest := by
  induction cs generalizing acc with
  | nil => rfl
  | cons c cs ih =>
    obtain ⟨first, later⟩ := List.forall_mem_cons.mp h
    rw [List.cons_append, tokenize_cons first, ih later, List.reverse_cons, List.append_assoc, List.singleton_append]

theorem flushWord_reverse {cs : List Char} (h : cs ≠ []) (rest : List Token) :
    flushWord cs.reverse rest = .word cs :: rest := by
  rw [flushWord, List.isEmpty_reverse, List.isEmpty_eq_false_iff.mpr h, List.reverse_reverse]
  rfl

/-- A word at the end of a line. -/
theorem tokenize_word {cs : List Char} (h : IsWord cs) : tokenize [] cs = [.word cs] := by
  obtain ⟨nonempty, chars⟩ := (isWord_iff cs).mp h
  have collected := tokenize_append chars [] []
  rw [List.append_nil, List.append_nil] at collected
  rw [collected, tokenize, flushWord_reverse nonempty]

/-- A word before a blank. -/
theorem tokenize_word_blank {cs : List Char} (h : IsWord cs) (rest : List Char) :
    tokenize [] (cs ++ ' ' :: rest) = .word cs :: tokenize [] rest := by
  obtain ⟨nonempty, chars⟩ := (isWord_iff cs).mp h
  rw [tokenize_append chars, List.append_nil, tokenize, flushWord_reverse nonempty]

/-- A word before a comma. -/
theorem tokenize_word_comma {cs : List Char} (h : IsWord cs) (rest : List Char) :
    tokenize [] (cs ++ ',' :: rest) = .word cs :: .comma :: tokenize [] rest := by
  obtain ⟨nonempty, chars⟩ := (isWord_iff cs).mp h
  rw [tokenize_append chars, List.append_nil, tokenize, flushWord_reverse nonempty]

/-! ## Lines -/

/-- A line of RDN with the cell operand `x`. -/
theorem assembleLine_rdn {x : List Char} {c : CellAddr} (hx : IsWord x) (hc : cellOperand x = some c) :
    assembleLine (['R', 'D', 'N', ' '] ++ x) = some [.rdn c] := by
  have tokens : tokenize [] (['R', 'D', 'N', ' '] ++ x) = [.word ['R', 'D', 'N'], .word x] := by
    rw [← tokenize_word hx]
    exact tokenize_word_blank (cs := ['R', 'D', 'N']) (by decide) x
  rw [assembleLine, tokens, assembleTokens, assembleUnary, if_pos rfl, hc]
  rfl

/-- A line of WRN with the cell operand `x` and the Nibble operand `y`. -/
theorem assembleLine_wrn {x y : List Char} {c : CellAddr} {n : Nibble} (hx : IsWord x) (hy : IsWord y)
    (hc : cellOperand x = some c) (hn : nibbleOperand y = some n) :
    assembleLine (['W', 'R', 'N', ' '] ++ x ++ [',', ' '] ++ y) = some [.wrn c n] := by
  have tokens : tokenize [] (['W', 'R', 'N', ' '] ++ x ++ [',', ' '] ++ y) =
      [.word ['W', 'R', 'N'], .word x, .comma, .word y] := by
    rw [← tokenize_word hy, List.append_assoc, List.append_assoc]
    exact (tokenize_word_blank (cs := ['W', 'R', 'N']) (by decide) _).trans
      (congrArg _ (tokenize_word_comma hx (' ' :: y)))
  rw [assembleLine, tokens, assembleTokens, assembleBinary, if_pos rfl, hc, hn]

/-- R42: a Nibble's decimal numeral is a word, and is read back as that Nibble. -/
theorem numeral_read (v : Nibble) :
    IsWord (numeral v) ∧ cellOperand (numeral v) = some v ∧ nibbleOperand (numeral v) = some v := by
  revert v; decide

/-- R42: each cell name is a word, and stands for its address. -/
theorem cellName_read : ∀ e ∈ cellNameTexts, IsWord e.1 ∧ cellOperand e.1 = some e.2 := by decide

theorem assembleLine_textOf (i : Instr) : assembleLine (textOf i) = some [i] := by
  cases i with
  | wrn c n =>
    obtain ⟨wordC, readC, -⟩ := numeral_read c
    obtain ⟨wordN, -, readN⟩ := numeral_read n
    exact assembleLine_wrn wordC wordN readC readN
  | rdn c =>
    obtain ⟨wordC, readC, -⟩ := numeral_read c
    exact assembleLine_rdn wordC readC
  | add16 | sub16 | stepup | stepdn | poll => rfl

/-- Settles O6: a line of RDN or WRN assembles by its operands, be they numerals or cell names. -/
theorem textAssemblesToCommand : Obligations.TextAssemblesToCommand := by
  refine ⟨assembleLine_textOf, fun e he => ?_, cellAt_addrOf, rfl⟩
  obtain ⟨wordE, readE⟩ := cellName_read e he
  refine ⟨readE, assembleLine_rdn wordE readE, fun n => ?_⟩
  obtain ⟨wordN, -, readN⟩ := numeral_read n
  exact assembleLine_wrn wordE wordN readE readN

end Sys2Proof.Machine
end
